-- ==== Sys2Proof/Word.lean ====
section
/-! DEFINITION. The word types of the block and the sparse table type its state is made of.
Widths follow the register and port tables of the spec (04 Table 4.1, 02 Table 2.1). -/

namespace Sys2Proof

/-- A 32-bit register word of the configuration window (15 R373). -/
abbrev Word := BitVec 32
/-- A 48-bit physical address (00, "it has no address translation"). -/
abbrev Addr := BitVec 48
/-- A byte. -/
abbrev Byte := BitVec 8
/-- A Yabex instruction word (05 R116). -/
abbrev IWord := BitVec 64
/-- A channel number, 0-1023 (04 R90). -/
abbrev Chan := BitVec 10
/-- A master port number, M0-M7 (02 R35). -/
abbrev PortNo := BitVec 3
/-- A tag of one direction of one master port (02 R46). -/
abbrev Tag := BitVec 6
/-- A mover number, 0-63 (07 R184). -/
abbrev MoverNo := BitVec 6
/-- A request line or an EVT_OUT line, 0-511 (03). -/
abbrev LineNo := BitVec 9
/-- A logical event, 0-4095 (03 R76). -/
abbrev Event := BitVec 12
/-- A power domain, 0-127 (03 R86). -/
abbrev Dom := BitVec 7
/-- A gate tile, G0-G127 (10 R245). -/
abbrev TileNo := BitVec 7

/-- A table by number in canonical form: keys strictly rise, and no entry holds the value that an unlisted key reads as. -/
abbrev Table (α : Type) := List (Nat × α)

end Sys2Proof
end

