-- ==== Sys2Proof/Machine/Bits.lean ====
section
/-! DEFINITION. Bit fields, parity, sparse tables and byte memory: the helpers every family uses.
Numbering of bits and bytes follows 00 R10 (little-endian, bit 0 least significant). -/

namespace Sys2Proof.Machine

/-! ### Bit fields -/

/-- Bits [lo + w - 1 : lo] of a word. -/
def fld {n : Nat} (x : BitVec n) (lo w : Nat) : BitVec w := x.extractLsb' lo w

/-- A one-bit field as a Bool. -/
def bit {n : Nat} (x : BitVec n) (i : Nat) : Bool := x.getLsbD i

/-- A number placed at bit `lo` of a 32-bit word. -/
def at32 (lo v : Nat) : Nat := v * 2 ^ lo

/-- A Bool placed at bit `lo`. -/
def flag32 (lo : Nat) (b : Bool) : Nat := if b then 2 ^ lo else 0

/-- The bits of `x` with bit `i` set to `b`. -/
def setBit {n : Nat} (x : BitVec n) (i : Nat) (b : Bool) : BitVec n :=
  if b then x ||| BitVec.ofNat n (2 ^ i) else x &&& ~~~ BitVec.ofNat n (2 ^ i)

/-- Bits [32k + 31 : 32k] of a wide register, as its word k. -/
def wordOf {n : Nat} (x : BitVec n) (k : Nat) : Word := x.extractLsb' (32 * k) 32

/-- A wide register with the bits of `m` in its word `k` cleared (W1C, 00 Table 0.4). -/
def clearWord {n : Nat} (x : BitVec n) (k : Nat) (m : Word) : BitVec n :=
  x &&& ~~~ BitVec.ofNat n (m.toNat * 2 ^ (32 * k))

/-- A wide register with its word `k` replaced. -/
def putWord {n : Nat} (x : BitVec n) (k : Nat) (v : Word) : BitVec n :=
  (x &&& ~~~ BitVec.ofNat n (0xFFFFFFFF * 2 ^ (32 * k))) ||| BitVec.ofNat n (v.toNat * 2 ^ (32 * k))

/-- Addition that stops at the largest value (the "saturates" of the register tables). -/
def satAdd {n : Nat} (x : BitVec n) (k : Nat) : BitVec n :=
  BitVec.ofNat n (min (x.toNat + k) (2 ^ n - 1))

/-- The number of ones among the low `k` bits of `x`. -/
def ones (x : Nat) : Nat → Nat
  | 0 => 0
  | k + 1 => (if x.testBit k then 1 else 0) + ones x k

/-- The bit that makes the number of ones odd (02 R37). -/
def oddParity {n : Nat} (x : BitVec n) : Bool := ones x.toNat n % 2 == 0

/-- Division rounded up, for a positive divisor. -/
def ceilDiv (a b : Nat) : Nat := (a + b - 1) / b

/-- The least multiple of `m` that is at least `a`. -/
def alignUp (a m : Nat) : Nat := ceilDiv a m * m

/-! ### Sparse tables -/

/-- The value at a key; an unlisted key reads as `d`. -/
def get {α : Type} (d : α) : Table α → Nat → α
  | [], _ => d
  | (k, v) :: r, i => if i < k then d else if i = k then v else get d r i

/-- The table with key `i` holding `v`; writing `d` removes the entry. -/
def put {α : Type} [DecidableEq α] (d : α) : Table α → Nat → α → Table α
  | [], i, v => if v = d then [] else [(i, v)]
  | (k, w) :: r, i, v =>
    if i < k then (if v = d then (k, w) :: r else (i, v) :: (k, w) :: r)
    else if i = k then (if v = d then r.dropWhile (fun e => decide (e.1 ≤ i)) else (i, v) :: r)
    else (k, w) :: put d r i v

/-- The canonical form: keys strictly rise and no entry holds `d`. -/
def canon {α : Type} [DecidableEq α] (d : α) : Table α → Bool
  | [] => true
  | [e] => decide (e.2 ≠ d)
  | e :: f :: r => decide (e.1 < f.1) && decide (e.2 ≠ d) && canon d (f :: r)

/-- A table built from any list of pairs; a later pair wins. -/
def tableOf {α : Type} [DecidableEq α] (d : α) (l : List (Nat × α)) : Table α :=
  l.foldl (fun t e => put d t e.1 e.2) []

/-- The table with `f` applied to the value at `i`. -/
def modify {α : Type} [DecidableEq α] (d : α) (t : Table α) (i : Nat) (f : α → α) : Table α :=
  put d t i (f (get d t i))

/-- The keys listed whose value meets a condition. -/
def keysWhere {α : Type} (t : Table α) (p : Nat → α → Bool) : List Nat :=
  (t.filter (fun e => p e.1 e.2)).map (·.1)

/-! ### Byte memory -/

/-- A RAM of the block: (address, byte) pairs in canonical form; an unlisted byte reads 0 (13 R345 step 1; 13 CMD_BUF). -/
abbrev Memory := List Host.Cell

/-- The canonical form of a RAM. -/
def Memory.wf (m : Memory) : Bool := canon (0 : BitVec 8) m

/-- One byte. -/
def readByte (m : Memory) (a : Nat) : BitVec 8 := get (α := BitVec 8) 0 m a

/-- Store one byte. -/
def writeByte (m : Memory) (a : Nat) (b : BitVec 8) : Memory := put (α := BitVec 8) 0 m a b

/-- `n` bytes from `a` upward as a number, least significant byte first (00 R10). -/
def readBytes (m : Memory) (a : Nat) : Nat → Nat
  | 0 => 0
  | n + 1 => (readByte m a).toNat + 256 * readBytes m (a + 1) n

/-- Store the low `n` bytes of `v` from `a` upward. -/
def writeBytes (m : Memory) (a : Nat) : Nat → Nat → Memory
  | 0, _ => m
  | n + 1, v => writeBytes (writeByte m a (BitVec.ofNat 8 v)) (a + 1) n (v / 256)

/-- The 64-bit instruction word at a byte offset (05 R116). -/
def readIWord (m : Memory) (a : Nat) : IWord := BitVec.ofNat 64 (readBytes m a 8)

/-- The 32-bit word at a byte offset. -/
def readWord (m : Memory) (a : Nat) : Word := BitVec.ofNat 32 (readBytes m a 4)

/-- `n` bytes of one RAM copied to another, in ascending order. -/
def copyBytes (src : Memory) (sa : Nat) (dst : Memory) (da : Nat) : Nat → Memory
  | 0 => dst
  | n + 1 => copyBytes src (sa + 1) (writeByte dst da (readByte src sa)) (da + 1) n

/-! ### Lists -/

/-- Insert a number into a rising list without repeats (a set, 03 R77). -/
def insertNat (x : Nat) : List Nat → List Nat
  | [] => [x]
  | y :: r => if x < y then x :: y :: r else if x = y then y :: r else y :: insertNat x r

/-- Insert by rank: before the first element that `better` does not place ahead. -/
def insertBy {α : Type} (better : α → α → Bool) (x : α) : List α → List α
  | [] => [x]
  | y :: r => if better x y then x :: y :: r else y :: insertBy better x r

/-- Sort by rank. -/
def sortBy {α : Type} (better : α → α → Bool) (l : List α) : List α := l.foldr (insertBy better) []

/-- The first by rank. -/
def bestBy {α : Type} (better : α → α → Bool) : List α → Option α
  | [] => none
  | x :: r => match bestBy better r with
    | none => some x
    | some y => if better y x then some y else some x

end Sys2Proof.Machine
end

