-- ==== Sys2Proof/Machine/Codec.lean ====
section
/-! DEFINITION. The codes of the spec: the DEC-TED code of beats (06 R177), the CRC of guyline frames (11 R286) and
SHA-256 (12 R311, FIPS 180-4). -/

namespace Sys2Proof.Machine

/-! ### DEC-TED (06 R177) -/

/-- Multiplication by α in GF(2^9) with p(x) = x^9 + x^4 + 1. -/
def gfStep (a : Nat) : Nat := let b := a * 2; if b < 512 then b else b ^^^ 0x211

/-- α^k. -/
def alphaPow : Nat → Nat
  | 0 => 1
  | k + 1 => gfStep (alphaPow k)

/-- α^k from an exponent of any size (the order of α is 511). -/
def alpha (k : Nat) : Nat := alphaPow (k % 511)

/-- Product in GF(2^9), by the bits of `b` from bit `n - 1` down. -/
def gfMul (a b : Nat) : Nat → Nat
  | 0 => 0
  | n + 1 => gfStep (gfMul a (b / 2) n) ^^^ (if b % 2 = 1 then a else 0)

/-- g(x) = m1(x) m3(x), with m1 = x^9 + x^4 + 1 and m3 = x^9 + x^6 + x^4 + x^3 + 1, of degree 18 (06 R177). -/
def genPoly : Nat := 0x495C9

/-- One step of the division by g(x): the remainder after shifting in one bit. -/
def genStep (r : Nat) (b : Bool) : Nat :=
  let t := r * 2 ^^^ (if b then 2 ^ 18 else 0)
  if t.testBit 18 then t ^^^ genPoly else t

/-- The remainder of x^18 d(x) for the top `k` data bits of `d`. -/
def genRem (d : Nat) : Nat → Nat
  | 0 => 0
  | k + 1 => genStep (genRem d k) (d.testBit (255 - k))

/-- CHK of a remainder `r` whose data bits hold `n` ones. -/
def chkOf (n r : Nat) : BitVec 19 := BitVec.ofNat 19 (r + (n + ones r 18) % 2 * 2 ^ 18)

/-- The check bits of 256 data bits (06 R177): CHK[17:0] the remainder, CHK[18] making the number of ones even. -/
def encodeChk (data : BitVec 256) : BitVec 19 :=
  chkOf (ones data.toNat 256) (genRem data.toNat 256 % 2 ^ 18)

/-- The syndrome of a received word: its difference from the code word of its data bits, as check bits. -/
def syndrome (data : BitVec 256) (chk : BitVec 19) : BitVec 19 := encodeChk data ^^^ chk

/-- The remainders of `n` successive powers of x, the first of which leaves `r`. -/
def powerRems : Nat → Nat → List Nat
  | 0, _ => []
  | n + 1, r => r :: powerRems n (genStep r false)

/-- The received word with bit `i` of its 275 flipped. -/
def flipBit (w : BitVec 256 × BitVec 19) (i : Nat) : BitVec 256 × BitVec 19 :=
  if i < 256 then (w.1 ^^^ BitVec.ofNat 256 (2 ^ i), w.2) else (w.1, w.2 ^^^ BitVec.ofNat 19 (2 ^ (i - 256)))

/-- The syndromes of the 275 single flips: data bit i is x^(18 + i) and its parity, and a check bit is itself. -/
def flipTable : List (BitVec 19) :=
  (powerRems 256 (genStep 0 true)).map (chkOf 1) ++ (List.range 19).map (fun i => BitVec.ofNat 19 (2 ^ i))

/-- The position of a syndrome in a table of flips. -/
def flipAt (fs : List (BitVec 19)) (s : BitVec 19) : Option Nat := fs.findIdx? (· == s)

/-- The flips, at most two, that explain a syndrome. The syndrome of one flip has an odd number of ones (CHK[18]), so that an odd one
in no row is that of no two flips. -/
def explain (fs : List (BitVec 19)) (s : BitVec 19) : Option (List Nat) :=
  if s = 0 then some []
  else match flipAt fs s with
    | some i => some [i]
    | none => if ones s.toNat 19 % 2 = 1 then none else match fs.find? (fun f => fs.contains (s ^^^ f)) with
      | some f => match flipAt fs f, flipAt fs (s ^^^ f) with
        | some i, some j => some [i, j]
        | _, _ => none
      | none => none

/-- What the decoder reports. -/
inductive Checked where
  | clean
  | corrected (data : BitVec 256) (chk : BitVec 19)
  | uncorrectable
  deriving DecidableEq, Repr

/-- The engine's decoder (06 R177), a function of the word: it corrects what one or two flips among the 275 bits explain. Any
other syndrome locates an error outside them or names more errors than the code corrects, and is uncorrectable. -/
def decodeBeat (data : BitVec 256) (chk : BitVec 19) : Checked :=
  if syndrome data chk = 0 then .clean
  else match explain flipTable (syndrome data chk) with
    | some l => let w := l.foldl flipBit (data, chk); .corrected w.1 w.2
    | none => .uncorrectable

/-! ### CRC-16 (11 R286) -/

/-- One bit of the CRC: generator x^16 + x^12 + x^5 + 1. -/
def crcStep (r : Nat) (b : Bool) : Nat :=
  let f := xor (r.testBit 15) b
  let t := (r * 2) % 65536
  if f then t ^^^ 0x1021 else t

/-- The CRC over the low `k` bits of `x`, from bit 0 upward. -/
def crcBits (x : Nat) : Nat → Nat
  | 0 => 0xFFFF
  | k + 1 => crcStep (crcBits x k) (x.testBit k)

/-- The CRC of a frame body's bits [111:0]; bit k is the coefficient of x^k. -/
def crc16 (body : BitVec 112) : BitVec 16 := BitVec.ofNat 16 (crcBits body.toNat 112)

/-! ### SHA-256 (12 R311) -/

/-- The primes below 312, of which there are 64. -/
def shaPrimes : List Nat := ((List.range 312).drop 2).filter (fun p => ((List.range 18).drop 2).all (fun d => p == d || p % d != 0))

/-- The largest `r` below 2^b with r^e ≤ n, bit by bit from the top. -/
def floorRoot (e : Nat) : Nat → Nat → Nat
  | 0, _ => 0
  | b + 1, n =>
    let r := 2 * floorRoot e b (n / 2 ^ e)
    if (r + 1) ^ e ≤ n then r + 1 else r

/-- The first 32 bits of the fractional part of the e-th root of `p`: the form in which FIPS 180-4 defines its constants. -/
def shaFraction (e p : Nat) : BitVec 32 := BitVec.ofNat 32 (floorRoot e 40 (p * 2 ^ (32 * e)))

/-- The 64 round constants, from the cube roots of the primes (FIPS 180-4, 4.2.2). -/
def shaK : List (BitVec 32) := shaPrimes.map (shaFraction 3)

/-- The eight working variables (FIPS 180-4, 6.2). -/
structure Sha where
  a : BitVec 32
  b : BitVec 32
  c : BitVec 32
  d : BitVec 32
  e : BitVec 32
  f : BitVec 32
  g : BitVec 32
  h : BitVec 32
  deriving DecidableEq, Repr

/-- The initial hash value, from the square roots of the first eight primes (FIPS 180-4, 5.3.3). -/
def shaInit : Sha :=
  let r := fun p => shaFraction 2 p
  { a := r 2, b := r 3, c := r 5, d := r 7, e := r 11, f := r 13, g := r 17, h := r 19 }

/-- One round (FIPS 180-4, 6.2.2, step 3). -/
def shaRound (s : Sha) (kw : BitVec 32 × BitVec 32) : Sha :=
  let s1 := s.e.rotateRight 6 ^^^ s.e.rotateRight 11 ^^^ s.e.rotateRight 25
  let chs := (s.e &&& s.f) ^^^ (~~~ s.e &&& s.g)
  let t1 := s.h + s1 + chs + kw.1 + kw.2
  let s0 := s.a.rotateRight 2 ^^^ s.a.rotateRight 13 ^^^ s.a.rotateRight 22
  let maj := (s.a &&& s.b) ^^^ (s.a &&& s.c) ^^^ (s.b &&& s.c)
  { a := t1 + (s0 + maj), b := s.a, c := s.b, d := s.c, e := s.d + t1, f := s.e, g := s.f, h := s.g }

/-- The message schedule, the last 16 words first (FIPS 180-4, 6.2.2, step 1). -/
def shaExtend : Nat → List (BitVec 32) → List (BitVec 32)
  | 0, w => w
  | n + 1, w =>
    let g := fun i => (w.drop i).headD 0
    let x15 := g 14; let x2 := g 1
    let s0 := x15.rotateRight 7 ^^^ x15.rotateRight 18 ^^^ (x15 >>> 3)
    let s1 := x2.rotateRight 17 ^^^ x2.rotateRight 19 ^^^ (x2 >>> 10)
    shaExtend n ((s1 + g 6 + s0 + g 15) :: w)

/-- One 64-byte block. -/
def shaBlock (s : Sha) (w : List (BitVec 32)) : Sha :=
  let sched := (shaExtend 48 w.reverse).reverse
  let r := (shaK.zip sched).foldl shaRound s
  { a := s.a + r.a, b := s.b + r.b, c := s.c + r.c, d := s.d + r.d,
    e := s.e + r.e, f := s.f + r.f, g := s.g + r.g, h := s.h + r.h }

/-- Bytes to big-endian words, at most `n` of them. -/
def shaWords : Nat → List Byte → List (BitVec 32)
  | 0, _ => []
  | n + 1, a :: b :: c :: d :: r => (a ++ b ++ c ++ d) :: shaWords n r
  | _, _ => []

/-- The blocks of a padded message. -/
def shaBlocks : Nat → List (BitVec 32) → Sha → Sha
  | 0, _, s => s
  | n + 1, w, s => shaBlocks n (w.drop 16) (shaBlock s (w.take 16))

/-- The padding of FIPS 180-4, 5.1.1. -/
def shaPad (m : List Byte) : List Byte :=
  let l := m.length
  m ++ [0x80] ++ List.replicate ((119 - l % 64) % 64) 0 ++
    (List.range 8).map (fun i => BitVec.ofNat 8 (8 * l / 256 ^ (7 - i)))

/-- SHA-256 of a byte sequence; byte j of the hash output is bits [8j + 7 : 8j] (12 R311, BS_TRAIL). -/
def sha256 (m : List Byte) : BitVec 256 :=
  let p := shaPad m
  let w := shaWords (p.length / 4) p
  let s := shaBlocks (p.length / 64) w shaInit
  let big := s.a ++ s.b ++ s.c ++ s.d ++ s.e ++ s.f ++ s.g ++ s.h
  (List.range 32).foldl (fun acc j => acc ||| BitVec.ofNat 256 ((big.toNat / 256 ^ (31 - j) % 256) * 256 ^ j)) 0

end Sys2Proof.Machine
end

