-- ==== Sys2Proof/Types.lean ====
section
/-! DEFINITION. The types of the commands' operands, and the decoded Yabex instruction.
Each structure carries the fields that the named table of the spec gives. -/

namespace Sys2Proof

/-- A beat on the read-response channel (02 Table 2.1, RD_*). -/
structure RdBeat where
  tag    : Tag
  data   : BitVec 256
  chk    : BitVec 19
  last   : Bool
  resp   : BitVec 3
  detail : BitVec 4
  par    : BitVec 2
  deriving DecidableEq, Repr, Inhabited

/-- A write response (02 Table 2.1, WR_*). -/
structure WrResp where
  tag    : Tag
  resp   : BitVec 3
  detail : BitVec 4
  beat   : BitVec 3
  par    : BitVec 2
  deriving DecidableEq, Repr, Inhabited

/-- A request on the upstream port of a gate tile (02 Table 2.1, RQ_*). -/
structure GateReq where
  write : Bool
  addr  : Addr
  size  : BitVec 3
  len   : BitVec 3
  tag   : Tag
  priv  : Bool
  mid   : BitVec 6
  dom   : Dom
  cls   : BitVec 2
  par   : BitVec 3
  deriving DecidableEq, Repr, Inhabited

/-- A beat on the write-data channel (02 Table 2.1, WD_*). -/
structure WdBeat where
  data   : BitVec 256
  chk    : BitVec 19
  strb   : BitVec 32
  last   : Bool
  poison : Bool
  par    : Bool
  deriving DecidableEq, Repr, Inhabited

/-- What a checker samples in one TCLK (10 R247, R249, R250): U_PORT_EN, a request and a write-data beat on U, and the two
credits on D. -/
structure GateIn where
  up    : Bool
  req   : Option GateReq
  beat  : Option WdBeat
  rqCrd : Bool
  wdCrd : Bool
  deriving DecidableEq, Repr, Inhabited

/-- What arrives on the BOOT port beside the answers to the bursts of a command (02 R58, R61, R62, R65): a response on a tag, or one
whose parity fails, or a credit pulse. -/
inductive BootStray where
  | response (write : Bool) (tag : Tag) (resp : BitVec 3)
  | parity (write : Bool) (tag : Tag)
  | credit (wd : Bool)
  deriving DecidableEq, Repr, Inhabited

/-- One 256-KiB copy area as the BOOT port returned it (12 R307): the bytes from the area's start (bytes not listed
read 0xFF, erased), the offsets of reads whose response was not OK, the offsets of uncorrectable beats, the offsets of correctable ones
with the bit that is wrong (of data and check bits, ascending; 06 R178), and what else arrives on the port, after the answers. -/
structure CopyImage where
  bytes : List Byte
  bad   : List (Nat × BitVec 3 × BitVec 4)
  ue    : List Nat
  ce    : List (Nat × BitVec 9) := []
  stray : List BootStray := []
  deriving DecidableEq, Repr, Inhabited

/-- What the BOOT port has answered to a reading command (13 R341). -/
inductive BootRead where
  /-- The burst of this index in the command gets no final response; the others are answered, with this image of the area. -/
  | noAnswer (lost : BitVec 11) (i : CopyImage)
  /-- Every burst has been answered, with this image of the area. -/
  | image (i : CopyImage)
  deriving DecidableEq, Repr, Inhabited

/-- What the BOOT port has answered to LOAD with DEST 1 (13 R341). -/
inductive BootWrite where
  /-- Every burst is presented, and that of this index gets no final response; the others are answered OK. -/
  | noAnswer (lost : BitVec 5)
  /-- The bursts of the first `presented` bytes have been presented, and every response will be OK. -/
  | later (presented : BitVec 13)
  /-- Every write response is in and OK. -/
  | ok
  /-- Every burst is presented; that of this index, if one is named, gets no final response, the others are answered OK; then this
  arrives on the port besides. -/
  | strays (lost : Option (BitVec 5)) (l : List BootStray)
  /-- The beat at this offset in the option area is the first of its burst that fails, and the burst is answered with another code. -/
  | err (resp : BitVec 3) (detail : BitVec 4) (offset : Word)
  deriving DecidableEq, Repr, Inhabited

/-- A requester on a port (07 R192). -/
inductive Requester where
  | mover (m : MoverNo)
  | fetch (ch : Chan)
  deriving DecidableEq, Repr, Inhabited

/-- A word of the retained configuration (01 Table 1.4): of the structure (word `word` of the records of the section of this TYPE, 12
Table 12.3), of a route, a peg, the gate shadow, CFG_EPOCH or DIGEST_REC. -/
inductive KeptWord where
  | record (type : BitVec 3) (word : BitVec 12)
  | reqRoute (n : LineNo)
  | evtRoute (e : Event)
  | globIn (g : BitVec 6)
  | peg (n : PortNo) (k : BitVec 6)
  | gateRule (tile : TileNo) (word : BitVec 8)
  | epoch
  | digestRec
  deriving DecidableEq, Repr, Inhabited

/-- An error in an on-block memory in RUN (06 R178, Table 6.3): a word that the engine corrects, of the context RAM, the program
store or the retained configuration, an uncorrectable one of the retained configuration, or bits that flip in a beat of the channel in
staging after its entry check, which the rebuild stage finds. -/
inductive MemErr where
  | fixedContext
  | fixedStore
  | fixedKept
  | kept (w : KeptWord)
  | staged (index : BitVec 12) (data : BitVec 256) (chk : BitVec 19)
  deriving DecidableEq, Repr, Inhabited

/-- What HALT_ENTRY is about: a fault that halts its channel, or the error that a read of an on-block memory finds. -/
inductive HaltSource where
  /-- The fault already detected and held back (09 R226, R227). -/
  | held
  /-- The program-store word at CH_PC, or the data word of its PUTI, is uncorrectable (04 R106, 05 R136). -/
  | storeWord (data : Bool)
  /-- Word `word` of the channel's context is uncorrectable (04 R94). -/
  | contextWord (word : BitVec 5)
  /-- Another error of an on-block memory, at which no channel halts (06 Table 6.3). -/
  | found (e : MemErr)
  deriving DecidableEq, Repr, Inhabited

/-- Where a dual-rail mismatch was found (17 R401). -/
inductive RailUnit where
  | scheduler
  | arbiter (n : PortNo)
  deriving DecidableEq, Repr, Inhabited

/-- The three cases of a gate ring failure (10 R273). -/
inductive RingCase where
  | timeout
  | untaken
  | parity
  deriving DecidableEq, Repr, Inhabited

/-- The kinds of ring beat (10 Table 10.8). -/
inductive RingKind where
  | census | write | read | readData | stage | apply | report | taken
  deriving DecidableEq, Repr, Inhabited

/-- The low-power values of PWR_CTL.TARGET (14 Table 14.7). -/
inductive LowTarget where
  | doze | retain | off
  deriving DecidableEq, Repr, Inhabited

/-- The words in which a wake sequence can find an uncorrectable word (14 R355). -/
inductive WakeUE where
  /-- The program store, at this byte offset. -/
  | store (offset : BitVec 18)
  /-- The retained configuration, at this byte offset. -/
  | retained (offset : Addr)
  deriving DecidableEq, Repr, Inhabited

/-- What the checks of a wake sequence find in the program store and in the retained configuration (14 R355): an uncorrectable
word, and how many words of each Gennal corrects. -/
structure WakeCheck where
  ue       : Option WakeUE
  fixStore : BitVec 16
  fixKept  : BitVec 16
  deriving DecidableEq, Repr, Inhabited

/-- What the host drives beside the address of a read (15 Table 15.1): CFG_WDATA, which CFG_PAR[1] covers, and CFG_PAR. -/
structure ReadPar where
  wdata : Word
  par   : BitVec 2
  deriving DecidableEq, Repr, Inhabited

/-- The tile of a command, and the ring failure that a beat of the command meets, if one does (10 R273). -/
structure RingTile where
  tile : TileNo
  fail : Option RingCase
  deriving DecidableEq, Repr, Inhabited

/-- The tile of a GATE_APPLY, and what its checker samples in the three TCLKs of the sequence (10 R263, Table 10.6). -/
structure ApplyIn where
  tile : TileNo
  in1  : GateIn
  in2  : GateIn
  in3  : GateIn
  deriving DecidableEq, Repr, Inhabited

/-- A guyline frame (11 Table 11.2), without its CRC. -/
structure Frame where
  type    : BitVec 4
  bc      : Bool
  src     : BitVec 16
  dst     : BitVec 16
  payload : BitVec 72
  deriving DecidableEq, Repr, Inhabited

/-- The nibbles that a guyline port receives in consecutive ticks (11 R285, R287). -/
structure Reception where
  down    : Bool
  nibbles : List (BitVec 4)
  deriving DecidableEq, Repr, Inhabited

/-- The inputs TM, WRSTN and SCAN_EN of the test port (17 R408, Table 17.6). -/
structure TestPins where
  tm     : Bool
  wrstN  : Bool
  scanEn : Bool
  deriving DecidableEq, Repr, Inhabited

/-- WS_BYPASS or a reserved encoding of the WIR, which acts as it (17 R408, Table 17.6), with the bit on WSI. -/
structure Bypass where
  code : BitVec 4
  wsi  : Bool
  deriving DecidableEq, Repr, Inhabited

/-- The cells of the wrapper boundary register, one for each functional input and one for each functional output but ROOTCLK, PORST_N,
SYSRST_N and the test inputs (17 R408): cell 0 lies next to WSO. -/
structure Boundary where
  ins  : BitVec 3962 := 0
  outs : BitVec 4521 := 0
  deriving DecidableEq, Repr, Inhabited

/-- The inputs of a port (02 Table 2.1). -/
structure PortIns where
  rqCredit : Bool := false
  wdCredit : Bool := false
  rdValid  : Bool := false
  rdTag    : Tag := 0
  rdData   : BitVec 256 := 0
  rdChk    : BitVec 19 := 0
  rdLast   : Bool := false
  rdResp   : BitVec 3 := 0
  rdDetail : BitVec 4 := 0
  rdPar    : BitVec 2 := 0
  wrValid  : Bool := false
  wrTag    : Tag := 0
  wrResp   : BitVec 3 := 0
  wrDetail : BitVec 4 := 0
  wrBeat   : BitVec 3 := 0
  wrPar    : BitVec 2 := 0
  deriving DecidableEq, Repr, Inhabited

/-- The levels of the functional inputs that no field of the state holds (17 R408): those of M0 to M7 and BOOT, of the configuration port
(15 Table 15.1), GR_RX (10 R247) and the lock (12 R325). -/
structure InPins where
  m0 : PortIns := {}
  m1 : PortIns := {}
  m2 : PortIns := {}
  m3 : PortIns := {}
  m4 : PortIns := {}
  m5 : PortIns := {}
  m6 : PortIns := {}
  m7 : PortIns := {}
  boot     : PortIns := {}
  cfgReq   : Bool := false
  cfgWe    : Bool := false
  cfgAddr  : BitVec 18 := 0
  cfgWdata : Word := 0
  cfgPar   : BitVec 2 := 0
  grRx     : BitVec 152 := 0
  lockEn   : Bool := false
  lock     : BitVec 256 := 0
  deriving DecidableEq, Repr, Inhabited

/-- A pass of the boundary register under WS_EXTEST: the inputs it captures, and the bits that WSI shifts in, the first one first. -/
structure Extest where
  pins : InPins
  wsi  : List Bool
  deriving DecidableEq, Repr, Inhabited

/-- A decoded Yabex instruction (05 Tables 5.3 to 5.12). -/
inductive Yabex where
  /-- 05 R122, Table 5.3. -/
  | move (srca dsta : BitVec 2) (esize : BitVec 3) (sinc dinc : Bool) (swap : BitVec 3) (wt : Bool) (cntm1 : BitVec 20)
  /-- 05 R135, Table 5.7. -/
  | puti (dsta : BitVec 2) (sz inc : Bool) (imm : BitVec 32)
  /-- 05 R140, Table 5.8. -/
  | seta (areg : BitVec 2) (value : BitVec 48)
  /-- 05 R140, Table 5.8. -/
  | adda (areg : BitVec 2) (stride : BitVec 48)
  /-- 05 R140, Table 5.8. -/
  | setl (lreg : BitVec 2) (value : BitVec 32)
  /-- 05 R141, Table 5.9. -/
  | loop (lreg : BitVec 2) (offset : BitVec 32)
  /-- 05 R141, Table 5.9. -/
  | jump (offset : BitVec 32)
  /-- 05 R141, Table 5.9. -/
  | link (src : Bool) (target : BitVec 48)
  /-- 05 R145, Table 5.10. -/
  | wait (kind : BitVec 2) (dlen staleEn miss : Bool) (dlticks : BitVec 24) (stale : Event) (arg : BitVec 12)
  /-- 05 R150, Table 5.11. -/
  | signal (event : Event)
  /-- 05 R150, Table 5.11. -/
  | signalF (event : Event)
  /-- 05 R150, Table 5.11. -/
  | fence
  /-- 05 R154, Table 5.12. -/
  | watch (n : BitVec 16) (event : Event)
  /-- 05 R156. -/
  | stop
  deriving DecidableEq, Repr, Inhabited

end Sys2Proof
end

