-- ==== Sys2Proof/Syntax.lean ====
section
/-! DEFINITION. The commands: one constructor per row of spec/opcode_table.json, in the table's order.
A docstring names the row's rule and says what the operands are. `tok` is CMD_CTL.TOKEN of a Gennal command and `rsv`
the bits of its argument words that 13 Table 13.2 leaves unnamed, in ascending order (13 R336). -/

namespace Sys2Proof

/-- The commands of the block. -/
inductive Instr where
  /-- R126: channel `ch`, bound to a mover, executes the MOVE at CH_PC. -/
  | move (ch : Chan)
  /-- R137. -/
  | puti (ch : Chan)
  /-- R140. -/
  | seta (ch : Chan)
  /-- R140. -/
  | adda (ch : Chan)
  /-- R140. -/
  | setl (ch : Chan)
  /-- R143. -/
  | loop (ch : Chan)
  /-- R142. -/
  | jump (ch : Chan)
  /-- R144. -/
  | link (ch : Chan)
  /-- R146. -/
  | wait (ch : Chan)
  /-- R151. -/
  | signal (ch : Chan)
  /-- R152. -/
  | signalF (ch : Chan)
  /-- R152. -/
  | fence (ch : Chan)
  /-- R155. -/
  | watch (ch : Chan)
  /-- R156. -/
  | stop (ch : Chan)
  /-- R97: the host writes 1 to CH_CTL.EN. -/
  | chStart (ch : Chan)
  /-- R238: the host writes 0 to CH_CTL.EN. -/
  | chAbort (ch : Chan)
  /-- R76: the host writes EVENT to EVT_SW. -/
  | evtSw (event : Event)
  /-- R202: the host writes PORTS and PRIO to PEG_COMMIT. -/
  | pegCommit (ports : BitVec 8) (prio : Bool)
  /-- R202: the commit wrap of the present ccyc. -/
  | pegCommitWrap
  /-- R243: the host writes POP to FLOG_POP. -/
  | flogPop (pop : Bool)
  /-- R270: the host writes POP to GATE_LOG_POP of a tile. -/
  | gateLogPop (tile : TileNo) (pop : Bool)
  /-- R261: the host writes rule word `word` (offset 4 × word, below 0x2D0) of a tile. -/
  | gateRuleWrite (tile : TileNo) (word : BitVec 8) (data : Word)
  /-- R260: the host writes GATE_CTL.EN of a tile. -/
  | gateCtlWrite (tile : TileNo) (en : Bool)
  /-- R274: the host reads the tile-resident register at word `word` of a tile's block. -/
  | tileRegisterRead (tile : TileNo) (word : BitVec 9)
  /-- R379: the host reads the word at CFG_ADDR `addr`; `par` holds CFG_WDATA and CFG_PAR. -/
  | captureRead (addr : BitVec 18) (par : ReadPar)
  /-- R374: the host writes `data` at CFG_ADDR `addr`; `par` is CFG_PAR. -/
  | registerWrite (addr : BitVec 18) (data : Word) (par : BitVec 2)
  /-- R349, R352. -/
  | pwrTargetLow (target : LowTarget)
  /-- R353. -/
  | pwrTargetRun
  /-- R349. -/
  | lowPowerEntry
  /-- R351. -/
  | wakeAt
  /-- R351. -/
  | dozeExit
  /-- R353: CORE_PSW_ACK rises; `census` names the tiles that answer the ring census, `found` is what the
  checks of the memories find. -/
  | corePswAck (census : BitVec 128) (found : WakeCheck)
  /-- R358. -/
  | porstN
  /-- R358. -/
  | sysrstN
  /-- R345: copies A and B as validated, then as read for the load; the tiles of the census; BS_LOCK when BS_LOCK_EN is 1. -/
  | boot (a b loadA loadB : CopyImage) (census : BitVec 128) (lock : Option (BitVec 256))
  /-- R341: a burst of the command in progress, or at boot of copy A or B at this offset, times out. -/
  | bootPortTimeout (copyB : Bool) (offset : BitVec 18)
  /-- R109. -/
  | loadProgramStore (tok : Byte) (nobump : Bool) (offset nbytes : Word) (rsv : BitVec 30)
  /-- R341. -/
  | loadOptionArea (tok : Byte) (nobump : Bool) (offset nbytes : Word) (rsv : BitVec 30) (ans : BootWrite)
  /-- R341. -/
  | verify (tok : Byte) (copyB : Bool) (rsv : BitVec 30) (ans : BootRead) (lock : Option (BitVec 256))
  /-- R341. -/
  | verifyRead (tok : Byte) (copyB : Bool) (offset nbytes : Word) (rsv : BitVec 30) (ans : BootRead)
  /-- R341: the copy as validated, then as read for the load. -/
  | restructure (tok : Byte) (copyB : Bool) (rsv : BitVec 31) (ans load : BootRead) (census : BitVec 128)
      (lock : Option (BitVec 256))
  /-- R340. -/
  | commitAt (tok : Byte) (t : BitVec 64) (e : Word)
  /-- R241. -/
  | park (tok : Byte) (ch : Chan) (rsv : BitVec 22)
  /-- R235. -/
  | resume (tok : Byte) (ch : Chan) (rsv : BitVec 22)
  /-- R236. -/
  | skip (tok : Byte) (ch : Chan) (rsv : BitVec 22)
  /-- R98. -/
  | resetCh (tok : Byte) (ch : Chan) (rsv : BitVec 21)
  /-- R359. -/
  | engineSoftReset (tok : Byte) (ch : Chan) (rsv : BitVec 21)
  /-- R359. -/
  | softResetDrainEnd
  /-- R263. -/
  | gateUpdate (tok : Byte) (tile : TileNo) (rsv : BitVec 24)
  /-- R339: the tile, and a ring failure of a beat of the command (R273). -/
  | gateUpdateStageOnly (tok : Byte) (tile : RingTile) (rsv : BitVec 24)
  /-- R339. -/
  | pegUpdate (tok : Byte) (ports : BitVec 8) (prio fromBuf : Bool) (rsv : BitVec 22)
  /-- R384. -/
  | routeUpdate (tok : Byte)
  /-- R299. -/
  | digest (tok : Byte)
  /-- R300. -/
  | rollcall (tok : Byte) (e : Word) (lead : BitVec 24) (rsv : BitVec 8)
  /-- R343: `failing` names the tests that the block's hardware would fail. -/
  | selftest (tok : Byte) (tests : BitVec 4) (rsv : BitVec 28) (failing : BitVec 4)
  /-- R344. -/
  | readLog (tok : Byte) (n : BitVec 7) (pop : Bool) (rsv : BitVec 24)
  /-- R340. -/
  | setTime (tok : Byte) (t : BitVec 64)
  /-- R70: REQ_IN[`line`] is at `level` in the present ccyc. -/
  | reqEdge (line : LineNo) (level : Bool)
  /-- R182: the scheduler's pass of one ccyc. -/
  | channelSelect
  /-- R195: the decision of port `n` in the present port cycle. -/
  | arbiterDecision (n : PortNo)
  /-- R167: mover `m` takes write tag `tag` for its next destination access. -/
  | slotReserve (m : MoverNo) (tag : Tag)
  /-- R167: the requester registers its next read under read tag `tag`. -/
  | readIssue (who : Requester) (tag : Tag)
  /-- R174: mover `m` launches the write of the slot of write tag `tag`. -/
  | writeLaunch (m : MoverNo) (tag : Tag)
  /-- R128. -/
  | moveRetire (ch : Chan)
  /-- R52. -/
  | readResponseBeat (n : PortNo) (beat : RdBeat)
  /-- R49. -/
  | writeResponse (n : PortNo) (resp : WrResp)
  /-- R56: `wd` 0 the request counter, 1 the write-data counter. -/
  | creditReturn (n : PortNo) (wd : Bool)
  /-- R226: a halt of channel `ch`, or an error found by a read of an on-block memory that it does (06 Table 6.3). -/
  | haltEntry (ch : Chan) (source : HaltSource)
  /-- R241. -/
  | parkEntry (ch : Chan)
  /-- R147. -/
  | instantReached (ch : Chan)
  /-- R149. -/
  | deadline (ch : Chan)
  /-- R79. -/
  | evtPulseOut (line : LineNo)
  /-- R370. -/
  | vmonLowAssert
  /-- R371. -/
  | vmonLowDeassert
  /-- R364. -/
  | pdReqRise (dom : Dom)
  /-- R365. -/
  | quiesceDrained (dom : Dom)
  /-- R368. -/
  | pdReqFall (dom : Dom)
  /-- R401. -/
  | safetyCmp (unit : RailUnit)
  /-- R253. -/
  | gateCheck (tile : TileNo) (input : GateIn)
  /-- R255: one TCLK, in which the target presents a read beat or a write response as the operands say (R256). -/
  | gerrResponse (tile : TileNo) (dRead : Option RdBeat) (dWrite : Option WrResp)
  /-- R263: the tile, and what its checker samples in the three TCLKs of the sequence. -/
  | gateApply (tile : ApplyIn)
  /-- R267: TRST_N rises; the operand is the tie-off DENY_AT_RESET. -/
  | tileReset (tile : TileNo) (denyAtReset : Bool)
  /-- R271. -/
  | gateReport (tile : TileNo)
  /-- R273. -/
  | gateRing (which : RingCase) (tile : TileNo) (kind : RingKind)
  /-- R291: a SYNC frame arrives with the sender's ridge time. -/
  | sync (src : BitVec 16) (tp : BitVec 64)
  /-- R291. -/
  | slewCorrection
  /-- R291. -/
  | syncSend
  /-- R290. -/
  | echoReqSend
  /-- R290: an ECHO_REQ arrives on the downstream port. -/
  | echoReq (src : BitVec 16) (t1 : BitVec 24)
  /-- R290: an ECHO_RSP arrives on the upstream port. -/
  | echoRsp (dst : BitVec 16) (t1 : BitVec 24) (turn : BitVec 16)
  /-- R288: the downstream (1) or upstream (0) port starts its next frame. -/
  | frameSend (down : Bool)
  /-- R294. -/
  | gevtUp (src : BitVec 16) (mask : BitVec 64)
  /-- R295. -/
  | gevt (src : BitVec 16) (mask : BitVec 64) (del : BitVec 24)
  /-- R295. -/
  | gevtDelivery
  /-- R414. -/
  | standaloneGevt
  /-- R303: a COMMIT frame arrives. -/
  | commit (src : BitVec 16) (t : BitVec 48) (e : Word)
  /-- R304. -/
  | commitApply
  /-- R300: a ROLL frame arrives. -/
  | roll (src : BitVec 16) (round : BitVec 16) (e : Word) (tr : BitVec 24)
  /-- R300. -/
  | rollSlot
  /-- R300: a ROLL_RSP frame arrives on the downstream port. -/
  | rollRsp (src : BitVec 16) (round : BitVec 16) (e : Word) (digOk epochOk busy : Bool)
  /-- R301. -/
  | rollClose
  /-- R299. -/
  | rehashDone
  /-- R339. -/
  | digestRecUpdate
  /-- R287: the downstream (1) or upstream (0) receiver. -/
  | guylineLinkUp (down : Bool)
  /-- R292. -/
  | guylineLinkDown (down : Bool)
  /-- R408, R409: the levels of TM, WRSTN and SCAN_EN. -/
  | testMode (pins : TestPins)
  /-- R408: WS_BYPASS or a reserved encoding, and the bit that WSI shifts through WBY. -/
  | wsBypass (b : Bypass)
  /-- R408: the boundary register captures the block's inputs and shifts. -/
  | wsExtest (x : Extest)
  /-- R408: the boundary register loads `b`. -/
  | wsPreload (b : Boundary)
  /-- R408. -/
  | wsClamp (wsi : Bool)
  /-- R408. -/
  | wsSafe
  /-- R408: `wpi` enters on WPI. -/
  | wpIntest (wpi : BitVec 16)
  /-- R410. -/
  | mbistRun
  /-- R410: `fail` is one bit per memory, in the order of the rule. -/
  | mbistDone (fail : BitVec 6)
  /-- R408. -/
  | mbistStat
  /-- R356. -/
  | supplyRemoval
  /-- R273. -/
  | checkerResetAssert (tile : TileNo)
  /-- R287: `r` is the port and what it receives, from the tick on in which the first nibble leaves the receive FIFO. -/
  | guylineBadFrame (r : Reception)
  /-- R117. -/
  | reservedOpcodeInstruction (ch : Chan)
  /-- R336. -/
  | cmdReservedOpcode (tok : Byte) (opcode : Byte)
  deriving DecidableEq, Repr

end Sys2Proof
end

