-- ==== Sys2Proof/Decode.lean ====
section
/-! DEFINITION. decodeTableWord over the rows of the opcode table that give bits (none does), and the decoding and
encoding of Yabex instruction words (05 Tables 5.1 to 5.12), which the engine does when a channel executes one. -/

namespace Sys2Proof

/-- The command that a word spells by the table's bits. No row of spec/opcode_table.json gives bits, so no word spells one. -/
def decodeTableWord (_nbits _w : Nat) : Option Instr := none

open Machine

/-- The opcode, bits [63:60] (05 R117). -/
def yabexOpcode (w : IWord) : BitVec 4 := fld w 60 4

/-- ESIZE is one of the values that Table 5.4 does not reserve. -/
def esizeOk (e : BitVec 3) : Bool := decide (e.toNat ≤ 3) || decide (e.toNat = 5)

/-- The element size in bytes (05 Table 5.4). -/
def esizeBytes (e : BitVec 3) : Nat := if e.toNat = 5 then 32 else 2 ^ e.toNat

/-- The unit of a swap mode in bytes (05 Table 5.5). -/
def swapUnit (x : BitVec 3) : Nat :=
  match x.toNat with
  | 0 => 1 | 1 => 2 | 2 => 4 | 3 => 4 | _ => 8

/-- The outcome of decoding a word: an instruction, or the lowest ILLEGAL detail code of 05 Table 5.2 that decoding
alone raises. -/
inductive Decoded where
  | ok (i : Yabex)
  | illegal (detail : BitVec 4)
  deriving DecidableEq, Repr

/-- An instruction if the reserved bits and values of its encoding are clear, else detail 0x2 (05 R118). -/
def checked (ok : Bool) (i : Yabex) : Decoded := if ok then .ok i else .illegal 2

/-- MOVE (05 Table 5.3, with R124 and R125: details 0x3 and 0x4). -/
def decodeMove (w : IWord) : Decoded :=
  let e := fld w 53 3; let sw := fld w 48 3
  if !(esizeOk e && decide (sw.toNat ≤ 4) && fld w 20 27 == 0) then .illegal 2
  else if esizeBytes e < swapUnit sw then .illegal 3
  else if (fld w 58 2 : BitVec 2) = fld w 56 2 then .illegal 4
  else .ok (.move (fld w 58 2) (fld w 56 2) e (bit w 52) (bit w 51) sw (bit w 47) (fld w 0 20))

/-- PUTI (05 Table 5.7). -/
def decodePuti (w : IWord) : Decoded :=
  checked (fld w 32 24 == 0 && (!bit w 57 || fld w 0 32 == 0)) (.puti (fld w 58 2) (bit w 57) (bit w 56) (fld w 0 32))

/-- The values that 05 Table 5.10 does not reserve. -/
def waitOk (kind : BitVec 2) (dlen staleEn miss : Bool) (dl : BitVec 24) (stale : Event) (arg : BitVec 12) : Bool :=
  (!dlen || kind != 2) && (!staleEn || dlen) && (!miss || kind == 2) &&
  (dlen == (dl != 0)) && (staleEn || stale == 0) &&
  (match kind.toNat with
   | 0 => decide (arg.toNat < 512)
   | 1 => true
   | 2 => decide (arg.toNat < 4)
   | _ => decide (arg.toNat < 64))

/-- WAIT (05 Table 5.10). -/
def decodeWait (w : IWord) : Decoded :=
  checked (fld w 48 7 == 0 &&
      waitOk (fld w 58 2) (bit w 57) (bit w 56) (bit w 55) (fld w 24 24) (fld w 12 12) (fld w 0 12))
    (.wait (fld w 58 2) (bit w 57) (bit w 56) (bit w 55) (fld w 24 24) (fld w 12 12) (fld w 0 12))

/-- Decode a Yabex word (05 R117, R118). -/
def decodeYabex (w : IWord) : Decoded :=
  match (yabexOpcode w).toNat with
  | 0x1 => decodeMove w
  | 0x2 => decodePuti w
  | 0x3 => checked (fld w 48 10 == 0) (.seta (fld w 58 2) (fld w 0 48))
  | 0x4 => checked (fld w 48 10 == 0) (.adda (fld w 58 2) (fld w 0 48))
  | 0x5 => checked (fld w 32 26 == 0) (.setl (fld w 58 2) (fld w 0 32))
  | 0x6 => checked (fld w 32 26 == 0) (.loop (fld w 58 2) (fld w 0 32))
  | 0x7 => checked (fld w 32 28 == 0) (.jump (fld w 0 32))
  | 0x8 => checked (fld w 49 11 == 0 && fld w 0 3 == 0) (.link (bit w 48) (fld w 0 48))
  | 0x9 => decodeWait w
  | 0xA => checked (fld w 12 48 == 0) (.signal (fld w 0 12))
  | 0xB => checked (fld w 12 48 == 0) (.signalF (fld w 0 12))
  | 0xC => checked (fld w 0 60 == 0) .fence
  | 0xD => checked (fld w 28 32 == 0 && fld w 12 16 != 0) (.watch (fld w 12 16) (fld w 0 12))
  | 0xE => checked (fld w 0 60 == 0) .stop
  | _ => .illegal 1

/-- The words of the encoding tables: `v` at bit `lo`. -/
def field (lo v : Nat) : Nat := v * 2 ^ lo

/-- The word of an instruction (05 Tables 5.3 to 5.12). -/
def encodeYabex : Yabex → IWord
  | .move s d e si di sw wt c => BitVec.ofNat 64 (field 60 1 + field 58 s.toNat + field 56 d.toNat + field 53 e.toNat +
      field 52 si.toNat + field 51 di.toNat + field 48 sw.toNat + field 47 wt.toNat + c.toNat)
  | .puti d sz inc imm => BitVec.ofNat 64 (field 60 2 + field 58 d.toNat + field 57 sz.toNat + field 56 inc.toNat + imm.toNat)
  | .seta a v => BitVec.ofNat 64 (field 60 3 + field 58 a.toNat + v.toNat)
  | .adda a v => BitVec.ofNat 64 (field 60 4 + field 58 a.toNat + v.toNat)
  | .setl l v => BitVec.ofNat 64 (field 60 5 + field 58 l.toNat + v.toNat)
  | .loop l o => BitVec.ofNat 64 (field 60 6 + field 58 l.toNat + o.toNat)
  | .jump o => BitVec.ofNat 64 (field 60 7 + o.toNat)
  | .link s t => BitVec.ofNat 64 (field 60 8 + field 48 s.toNat + t.toNat)
  | .wait k dlen st miss dl stale arg => BitVec.ofNat 64 (field 60 9 + field 58 k.toNat + field 57 dlen.toNat +
      field 56 st.toNat + field 55 miss.toNat + field 24 dl.toNat + field 12 stale.toNat + arg.toNat)
  | .signal e => BitVec.ofNat 64 (field 60 10 + e.toNat)
  | .signalF e => BitVec.ofNat 64 (field 60 11 + e.toNat)
  | .fence => BitVec.ofNat 64 (field 60 12)
  | .watch n e => BitVec.ofNat 64 (field 60 13 + field 12 n.toNat + e.toNat)
  | .stop => BitVec.ofNat 64 (field 60 14)

/-- The instructions that have an encoding: no reserved value or combination (05 Tables 5.3 to 5.12). -/
def Yabex.wf : Yabex → Bool
  | .move s d e _ _ sw _ _ => esizeOk e && decide (sw.toNat ≤ 4) && decide (swapUnit sw ≤ esizeBytes e) && s != d
  | .puti _ sz _ imm => !sz || imm == 0
  | .link _ t => fld t 0 3 == 0
  | .wait k dlen st miss dl stale arg => waitOk k dlen st miss dl stale arg
  | .watch n _ => n != 0
  | _ => true

/-- The bytes of program that an instruction occupies (05 R136). -/
def Yabex.size : Yabex → Nat
  | .puti _ true _ _ => 16
  | _ => 8

end Sys2Proof
end

