-- ==== Sys2Proof/Config.lean ====
section
/-! DEFINITION. The values the spec leaves open (log entry 6): opaque constants, of which nothing can be proved.
A step applies one to the counter State.free, which it advances, or to the operands the value depends on. -/

namespace Sys2Proof.Config

/-- CH_MOVE_RD and CH_MOVE_WR after an abort (09 R239: "undefined"). -/
opaque freeElems : Nat → BitVec 21
/-- A 32-bit word of a context that holds an uncorrectable error (04 R94: "undefined"). -/
opaque freeWord : Nat → BitVec 32
/-- DETAIL of the halt that an uncorrectable context word causes (04 R94 and 06 Table 6.4 name no code). -/
opaque freeDetail : Nat → BitVec 4
/-- FAULT_ADDR of that halt (04 R94 and 06 R179 name no address), and the offset in the retained configuration, whose layout the
manual does not give, of an uncorrectable word found in RUN (14 R355; 09 Table 9.10). -/
opaque freeAddr : Nat → BitVec 48
/-- DIR of that halt (06 Table 6.4 has no row for it). -/
opaque freeDir : Nat → BitVec 2
/-- PORT of that halt (09 Table 9.4 names the port of the access; there is none). -/
opaque freePort : Nat → BitVec 3
/-- The check bits of a poisoned beat, whose code word is undefined (02 R55). -/
opaque freeChk : Nat → BitVec 19
/-- The data bits of a poisoned beat (02 R55). -/
opaque freeBeat : Nat → BitVec 256
/-- An instruction word of system memory that the engine has not fetched (09 R236: the SKIP of an instruction that a channel
came to no more). -/
opaque freeInstr : Nat → BitVec 64
/-- BOOT_BASE[47:18], the integrator's input (12 R307). -/
opaque bootBase : BitVec 30
/-- The tie-off values of PD_ACK[127:0], the integrator's choice (03 R88, Table 3.13). -/
opaque ackTie : BitVec 128
/-- The number of the instance above this one in the cascade, which its frames carry as SRC (11 Table 11.2). -/
opaque parentId : BitVec 16
/-- The place of a gate tile's stop on the ring, in the order of the integrator's wiring (10 R272). -/
opaque ringPos : BitVec 7 → Nat
/-- The constant levels of the guyline transmit lines under isolation, which the board's resistors set: TXC and TXD upstream, then
downstream (03 Table 3.13). -/
opaque glTie : BitVec 10
/-- A bit of a field applied by a commit against R305 (11: "which one is not defined"). -/
opaque freeBool : Nat → Bool

end Sys2Proof.Config
end

