-- ==== Sys2Proof/Machine/State.lean ====
section
/-! DEFINITION. The state of the block, as plain data (INVENTORY.md, "State"), and the state after power-on reset.
Each structure cites the rule or table that gives its fields. -/

namespace Sys2Proof.Machine

/-- Why a step stops with a fault. -/
inductive Fault where
  /-- A responder broke the fabric protocol in a case that is not one of the four of 00 R4, so the result is undefined
  (00 R4, 02 R63): raised by READ_RESPONSE_BEAT and WRITE_RESPONSE. Safe: the model stops where nothing is known. -/
  | protocolViolation
  deriving DecidableEq, Repr

/-- Why a step gives no meaning. -/
inductive Refusal where
  /-- The command has no meaning yet: raised by an arm of exec only. Safe. -/
  | notModelled (mnemonic : String)
  deriving DecidableEq, Repr

/-! ### Time, interrupts, log -/

/-- Clocks and ridge time (01 R25, 11 R277-R281, R291); `coreBase` is the ccyc in which core cycle 0 begins, `selectAt` that of the
latest scheduler pass and `passed` the candidates that it passed over (07 R182), `porstAt` that of the latest PORST_N (14 R357). -/
structure Clock where
  now      : Nat := 0
  coreBase : Nat := 0
  ridge    : BitVec 64 := 0
  slewRem  : Int := 0
  slewAt   : Nat := 0
  adj      : Int := 0
  stepTo   : Option (BitVec 64) := none
  setTime  : Option (Nat × BitVec 64) := none
  selectAt : Option Nat := none
  passed   : List Nat := []
  porstAt  : Option Nat := none
  deriving DecidableEq, Repr, Inhabited

/-- Interrupt causes (03 R81-R83) with the two TICK stages of IRQ[3:0] (01 R411); `fresh` lists the W1C bits that the engine
has set in the present ccyc, as 32 × word offset + bit (01 R21), and `old` is the causes as the ccyc began. -/
structure Irq where
  cause      : BitVec 64 := 0
  old        : BitVec 64 := 0
  mask       : BitVec 64 := 0x03EF000F03FF00FF
  d1         : BitVec 4 := 0
  out        : BitVec 4 := 0
  safetyPend : Bool := false
  fresh      : List Nat := []
  deriving DecidableEq, Repr, Inhabited

/-- A fault-log entry (09 Tables 9.13, 9.14). -/
structure LogEntry where
  kind   : BitVec 5 := 0
  port   : BitVec 3 := 0
  dir    : BitVec 2 := 0
  resp   : BitVec 3 := 0
  detail : BitVec 4 := 0
  cause  : BitVec 4 := 0
  ch     : BitVec 10 := 0
  tag    : BitVec 6 := 0
  addr   : BitVec 48 := 0
  time   : BitVec 32 := 0
  deriving DecidableEq, Repr, Inhabited

/-- The fault log, oldest entry first (09 R243); `fresh` counts the entries written in the present ccyc, among which R243
gives the order. -/
structure FaultLog where
  entries : List LogEntry := []
  head    : BitVec 6 := 0
  lost    : BitVec 8 := 0
  fresh   : Nat := 0
  deriving DecidableEq, Repr, Inhabited

/-! ### Lines and events -/

/-- The edge of a line that is handled in the present ccyc (03 R70, R72-R74): there is none, or a WAIT has taken it; it was
added to the counter; it found the counter at 15, with the overflow flag 0 or 1; it goes to the owner, which waited on the line
when the ccyc began. -/
inductive EdgeUse where
  | none
  | counted
  | over
  | lost
  | wake
  deriving DecidableEq, Repr, Inhabited

/-- A request line (03 R66-R74): the input, the two stages of its synchronizer (03 R67, R69), the edge detector, what the edge
handled in the present ccyc has done, the ccyc of the latest load of the detector, the counter and its overflow flag. -/
structure ReqLine where
  pin : Bool := false
  s1  : Bool := false
  s2  : Bool := false
  det : Bool := false
  use : EdgeUse := .none
  loadAt : Option Nat := none
  cnt : BitVec 4 := 0
  ovf : Bool := false
  deriving DecidableEq, Repr, Inhabited

/-- An EVT_OUT line: the latest ccyc in which it is high, which may be the next one, and the events queued for it (03 R79). -/
structure EvtLine where
  last  : Option Nat := none
  queue : List Nat := []
  deriving DecidableEq, Repr, Inhabited

/-- The event crossbar (03 R76-R80): the logical events raised in the present ccyc, those of them that other sources than an instruction
raised, the logical events delivered in it, the global events that arrive in it, the EVT_OUT lines, and EVT_OVF. -/
structure Events where
  raised     : List Nat := []
  direct     : List Nat := []
  delivered  : List Nat := []
  gdelivered : BitVec 64 := 0
  lines      : Table EvtLine := []
  ovf        : BitVec 512 := 0
  deriving DecidableEq, Repr, Inhabited

/-- A group of routes: the shadows and the routes in force of 15 Tables 15.9 to 15.11, as register words. -/
structure Routes where
  req  : Table Word := []
  evt  : Table Word := []
  glob : Table Word := []
  deriving DecidableEq, Repr, Inhabited

/-! ### Channels -/

/-- Channel classes (04 Table 4.6). -/
inductive Cls where
  | bulk | timed | urgent
  deriving DecidableEq, Repr, Inhabited

/-- A program address (04 R93): `sys` is SRC 1, system memory. -/
structure PAddr where
  sys  : Bool := false
  addr : BitVec 48 := 0
  deriving DecidableEq, Repr, Inhabited

/-- Channel states (04 Table 4.4). -/
inductive ChState where
  | idle | ready | running | waiting | parked | halted | aborting
  deriving DecidableEq, Repr, Inhabited

/-- Reasons for WAITING (04 Table 4.5). -/
inductive WaitOn where
  | none | line | event | instant | gevent | fenced | fetch
  deriving DecidableEq, Repr, Inhabited

/-- Fault causes (09 Table 9.2). -/
inductive Cause where
  | none | align | bus | gate | ecc | illegal | fetch | deadline | late | brownout | quiesce
  deriving DecidableEq, Repr, Inhabited

/-- FAULT_INFO (09 Table 9.1). -/
structure FaultInfo where
  valid  : Bool := false
  port   : BitVec 3 := 0
  detail : BitVec 4 := 0
  dir    : BitVec 2 := 0
  cause  : Cause := .none
  deriving DecidableEq, Repr, Inhabited

/-- A fault as detected: what its halt will latch and log (09 Tables 9.4, 9.10). `tag` and `resp` for a response-borne cause. -/
structure FaultRec where
  cause  : Cause := .none
  addr   : BitVec 48 := 0
  dir    : BitVec 2 := 0
  port   : BitVec 3 := 0
  detail : BitVec 4 := 0
  resp   : BitVec 3 := 0
  tag    : BitVec 6 := 0
  deriving DecidableEq, Repr, Inhabited

/-- Four registers numbered 0 to 3 (A0-A3, L0-L3). -/
structure Regs4 (w : Nat) where
  r0 : BitVec w := 0
  r1 : BitVec w := 0
  r2 : BitVec w := 0
  r3 : BitVec w := 0
  deriving DecidableEq, Repr, Inhabited

/-- A prefetch buffer: the address of its first instruction and its instructions (04 R103-R105): a fetch group, or the
instruction at CH_PC and those after it in the program store. -/
structure Prefetch where
  base  : PAddr
  words : List IWord
  deriving DecidableEq, Repr, Inhabited

/-- The geometry of a MOVE or PUTI under way (05 R126, R131; 06 R159-R161): the addresses and ports of both sides, the
element size and count, increments, swap mode, tap, the two A registers, and for a PUTI the value written. -/
structure Geometry where
  s     : Nat := 0
  d     : Nat := 0
  e     : Nat := 1
  n     : Nat := 1
  sinc  : Bool := false
  dinc  : Bool := false
  swap  : BitVec 3 := 0
  wt    : Bool := false
  sport : Nat := 0
  dport : Nat := 0
  sreg  : BitVec 2 := 0
  dreg  : BitVec 2 := 0
  imm   : Option (BitVec 64) := none
  deriving DecidableEq, Repr, Inhabited

/-- A source beat in staging (06 R163, R164): its address / 32, the elements `lo` to `hi` - 1 that its read was issued
for, the source address S of that read, its code word, its arrival ccyc, whether a correction delayed it (06 Table 6.3), and
whether it arrived bad. From ccyc `ready` on its
bytes lie in the write slots that they feed (06 R165); before, it takes up the slot of its read tag (R169). -/
structure Staged where
  beat : Nat
  lo   : Nat
  hi   : Nat
  s    : Nat
  data : BitVec 256
  chk  : BitVec 19
  time : Nat
  late : Bool
  ready : Nat
  bad  : Bool
  tag  : Tag
  deriving DecidableEq, Repr, Inhabited

/-- A destination slot (06 R167) until its last beat has left: its write tag, the first destination unit (element, or
beat counted from D / 32) and the number of units, whether its write is launched and whether under cut-through (06 R174),
whether it may be (a re-send may not, 06 R176), whether a beat of 06 R175 case 2 has gone out and whether case 1 is logged;
the ccyc of its reservation (06 R165) and the first ccyc for its launch (06 R176). -/
structure Slot where
  tag      : Tag
  unit     : Nat
  len      : Nat
  launched : Bool := false
  cut      : Bool := false
  whole    : Bool := false
  badSrc   : Bool := false
  lateLog  : Bool := false
  since    : Nat := 0
  first    : Nat := 0
  deriving DecidableEq, Repr, Inhabited

/-- A MOVE or PUTI under way (06 R167-R176). Cursors count elements (`rd`) and destination units (`resv`, `wr`, with
`done` the units beyond `wr` that have left); elements below `e0` were written before the MOVE was continued. `resend`
holds the first unit and length of the parts to send again (06 R176) and the first ccyc for the launch. -/
structure Run where
  geo    : Geometry
  e0     : Nat := 0
  resv   : Nat := 0
  rd     : Nat := 0
  wr     : Nat := 0
  done   : List Nat := []
  staged : List Staged := []
  slots  : List Slot := []
  resend : List (Nat × Nat × Nat) := []
  deriving DecidableEq, Repr, Inhabited

/-- A pending RESUME or SKIP (13 R338). -/
inductive PendCmd where
  | none | resume | skip
  deriving DecidableEq, Repr, Inhabited

/-- A channel: its context (04 Table 4.1) and, from `buf` on, what the engine keeps for it outside the context: the prefetch buffer (04
R103) with the word of a PUTI whose data word is being fetched (05 R136), and a fetched beat that a correction holds for one ccyc (06 Table
6.3), with its ccyc; a fault detected and not yet latched (09 R226, R227) with the ccyc of detection, the first ccyc for the halt (once
HALTED, that of the halt), and whether it is raised (07 R188); the entries that the present ccyc owes the fault log for it (04 R99); the
ccyc of a park (09 R241); what the present ccyc may take back of it (04 R99): the events that its instruction has raised, the line whose
pulse its WAIT has taken, as it stood, and the fault of its halt; the first ccyc for the next instruction (07 R183), the ccyc in which a
mover was kept for it (05 R139), that of a host write of 1 to EN (04 R97) and that of a STOP, and whether it starts again in the next ccyc
(04 R99); the ccyc in which it left HALTED or PARKED (01 R21); a RESET_CH that waits for tags (04 R98); the latest instruction in hand, with
its address (09 R236), and a pending RESUME or SKIP (09 R234); the ccyc in which it became a candidate (07 R181); whether the next WAIT is a
new arrival (05 R148); whether R131 is due again (05 R133); whether the fetch that it waits for has been issued (04 R105); whether its FENCE
or SIGNAL.F completes in the present ccyc, and the ccyc in which it entered WAITING (05 R152, 08 R211, 09 R241); the watched word of its
MOVE (05 R134); and the MOVE or PUTI under way. -/
structure Channel where
  en          : Bool := false
  st          : ChState := .idle
  waitOn      : WaitOn := .none
  waitArg     : BitVec 12 := 0
  haltPend    : Bool := false
  dlArmed     : Bool := false
  parkSrc     : Bool := false
  inMove      : Bool := false
  parkPend    : Bool := false
  assigned    : Bool := false
  cls         : Cls := .bulk
  prio        : BitVec 3 := 0
  prioSh      : BitVec 3 := 0
  priv        : Bool := false
  mid         : BitVec 6 := 0
  pin         : Bool := false
  autoResume  : Bool := false
  homeDom     : Dom := 0
  entry       : PAddr := {}
  pc          : PAddr := {}
  a           : Regs4 48 := {}
  l           : Regs4 32 := {}
  moveRd      : BitVec 21 := 0
  moveWr      : BitVec 21 := 0
  watchVal    : BitVec 32 := 0
  watchCnt    : BitVec 16 := 0
  dl          : BitVec 64 := 0
  faultAddr   : BitVec 48 := 0
  faultInfo   : FaultInfo := {}
  faultPc     : PAddr := {}
  buf         : Option Prefetch := none
  fetchIn     : Option (Nat × Addr × BitVec 256) := none
  held        : Option FaultRec := none
  raised      : Bool := false
  logs        : List LogEntry := []
  raises      : List Nat := []
  took        : Option (Nat × BitVec 4 × EdgeUse) := none
  latched     : Option FaultRec := none
  faultAt     : Nat := 0
  haltAt      : Nat := 0
  parkAt      : Nat := 0
  nextAt      : Nat := 0
  chainAt     : Option Nat := none
  enAt        : Option Nat := none
  stopAt      : Option Nat := none
  startNext   : Bool := false
  leftAt      : Option Nat := none
  resetting   : Bool := false
  pastEnd     : Bool := false
  hold        : Option IWord := none
  last        : Option (PAddr × IWord) := none
  pendCmd     : PendCmd := .none
  since       : Nat := 0
  newWait     : Bool := true
  recheck     : Bool := false
  parkSrcNext : Bool := false
  wakeNext    : Bool := false
  fetched     : Bool := false
  met         : Bool := false
  waitAt      : Option Nat := none
  tap         : Option (BitVec 32) := none
  run         : Option Run := none
  deriving DecidableEq, Repr, Inhabited

/-! ### Movers and ports -/

/-- A mover (07 R184-R189). -/
structure Mover where
  ch     : Option Nat := none
  since  : Nat := 0
  victim : Option Nat := none
  deriving DecidableEq, Repr, Inhabited

/-- A channel, and a mover it held, as they stood before its own progress or its park in the present ccyc, which a cause before these
in the order of 04 R99 takes back. -/
structure Before where
  chan  : Channel
  mover : Option (Nat × Mover)
  deriving DecidableEq, Repr, Inhabited

/-- An outstanding read tag (02 R46): its burst, the beats received, the elements `lo` to `hi` - 1 it was issued for and
the S of the read; `cur` while the MOVE that issued it has not ended (09 R234); whether it is broken (02 R62), orphaned
(14 R360), no longer needed (08 R213), or has given its one fault or log entry (09 R231). -/
structure RTag where
  ch     : Nat := 0
  fetch  : Bool := false
  addr   : Addr := 0
  size   : BitVec 3 := 5
  len    : Nat := 1
  lo     : Nat := 0
  hi     : Nat := 0
  s      : Nat := 0
  got    : Nat := 0
  cur    : Bool := true
  broken : Bool := false
  orphan : Bool := false
  stale  : Bool := false
  failed : Bool := false
  late   : Bool := false
  deriving DecidableEq, Repr, Inhabited

/-- An outstanding write tag (02 R46): its burst, its first destination unit, its beats presented and the ccyc of the latest; its geometry
and first element; `cur` while the MOVE or PUTI that issued it has not ended; the first poisoned beat and whether one was poisoned by 06
R175 case 2. -/
structure WTag where
  ch     : Nat := 0
  addr   : Addr := 0
  size   : BitVec 3 := 5
  len    : Nat := 1
  unit   : Nat := 0
  sent   : Nat := 0
  lastAt : Nat := 0
  geo    : Geometry := {}
  e0     : Nat := 0
  cur    : Bool := true
  puti   : Bool := false
  orphan : Bool := false
  poison : Option Nat := none
  badSrc : Bool := false
  deriving DecidableEq, Repr, Inhabited

/-- A registered request (07 R192, R193) of `len` beats: `time` is the ccyc of its registration, `gone` that it was
withdrawn in the present ccyc (07 R198); for a read `lo` to `hi` - 1 are the elements it is issued for, for a write `lo`
is its first destination unit. -/
structure Request where
  who   : Requester
  ch    : Nat
  write : Bool
  addr  : Addr
  size  : BitVec 3
  len   : Nat
  tag   : Tag
  time  : Nat
  lo    : Nat
  hi    : Nat
  gone  : Bool := false
  deriving DecidableEq, Repr, Inhabited

/-- A request on the request channel (02 Table 2.1, RQ_*). -/
structure RqOut where
  write : Bool
  addr  : Addr
  size  : BitVec 3
  len   : BitVec 3
  tag   : Tag
  priv  : Bool
  mid   : BitVec 6
  dom   : Dom
  cls   : BitVec 2
  par   : BitVec 3
  deriving DecidableEq, Repr, Inhabited

/-- A beat on the write-data channel (02 Table 2.1, WD_*). -/
structure WdOut where
  data   : BitVec 256
  chk    : BitVec 19
  strb   : BitVec 32
  last   : Bool
  poison : Bool
  par    : Bool
  deriving DecidableEq, Repr, Inhabited

/-- A write burst with beats owed on the write-data channel (02 R43): `next` is the next beat. -/
structure Burst where
  ch   : Nat
  tag  : Tag
  len  : Nat
  next : Nat
  deriving DecidableEq, Repr, Inhabited

/-- PORT_STARVE (07 Table 7.15). -/
structure Starve where
  valid : Bool := false
  ch    : BitVec 10 := 0
  mover : BitVec 6 := 0
  fetch : Bool := false
  cls   : BitVec 2 := 0
  deriving DecidableEq, Repr, Inhabited

/-- A master port (02; 07; 12 Table 12.5); `rqCred` and `wdCred` are the credits of the present port cycle, `rqUsed` to `wdRet`
what it has used and been returned (02 R56); `presents` is the requester that presents in the present port cycle, `decidedAt`
the port cycle of the latest decision. -/
structure Port where
  used      : Bool := false
  ratio     : Bool := false
  stream    : Bool := false
  fetch     : Bool := false
  thrBulk   : BitVec 16 := 0
  thrTimed  : BitVec 16 := 0
  thrUrgent : BitVec 16 := 0
  en        : Bool := false
  rqCred    : Nat := 0
  wdCred    : Nat := 0
  rqUsed    : Nat := 0
  rqRet     : Nat := 0
  wdUsed    : Nat := 0
  wdRet     : Nat := 0
  rtags     : Table (Option RTag) := []
  wtags     : Table (Option WTag) := []
  freedR    : BitVec 64 := 0
  freedW    : BitVec 64 := 0
  reqs      : List Request := []
  ages      : Table Nat := []
  holder    : Option Requester := none
  grant     : Option Request := none
  presents  : Option Requester := none
  decidedAt : Option Nat := none
  burst     : Option Burst := none
  starve    : Starve := {}
  rqOut     : Option RqOut := none
  wdOut     : Option WdOut := none
  deriving DecidableEq, Repr, Inhabited

/-- A pending commit (07 R202): its wrap, PORTS, PRIO, the shadows taken at the end of ccyc w - 4, and which of its PORTS
and whether its PRIO are part of an armed commit (11 Table 11.6); the priorities that it commits where the host has spoiled it (13 R335). -/
structure PegCommit where
  wrap  : Nat
  ports : BitVec 8
  prio  : Bool
  taken : Option (Table (BitVec 16) × Table (BitVec 3)) := none
  armed : BitVec 8 := 0
  armedPrio : Bool := false
  spoilt : Option (Table (BitVec 3)) := none
  deriving DecidableEq, Repr, Inhabited

/-- An address window (12 R315) or NV window (12 R316; port and domain 0). -/
structure Window where
  base  : Addr
  limit : Addr
  port  : BitVec 3
  dom   : Dom
  deriving DecidableEq, Repr, Inhabited

/-! ### Mailbox, boot -/

/-- Six argument words, four result words (13 Table 13.5). -/
structure Args where
  a0 : Word := 0
  a1 : Word := 0
  a2 : Word := 0
  a3 : Word := 0
  a4 : Word := 0
  a5 : Word := 0
  deriving DecidableEq, Repr, Inhabited

/-- See `Args`. -/
structure Results where
  r0 : Word := 0
  r1 : Word := 0
  r2 : Word := 0
  r3 : Word := 0
  deriving DecidableEq, Repr, Inhabited

/-- The command in progress (13 R334), where it does not end in the step that issued it. `fromBuf` and `toBuf` say that it
reads or writes CMD_BUF (13 R335). `back` of a LOAD: where its responses all come, the write tags outstanding once they are in. -/
inductive Job where
  | none
  | boot
  | park (ch : Nat)
  | pegUpdate (wrap : Nat) (ports : BitVec 8) (fromBuf : Bool)
  | gateUpdate (tile : Nat) (stageOnly : Bool)
  | digest
  | softReset
  | bootRead (verify copyB toBuf : Bool)
  | verifyWait (copyB : Bool) (i : CopyImage) (lock : Option (BitVec 256))
  | restructureWait (copyB : Bool) (i : CopyImage) (load : BootRead) (census : BitVec 128) (lock : Option (BitVec 256))
  | rollcall (res : Results)
  | selftest (tests failing : BitVec 4) (due : Nat)
  | bootWrite (offset nbytes presented : Nat) (back : Option (BitVec 4)) (stopped : Bool)
  deriving DecidableEq, Repr, Inhabited

/-- The mailbox (13 Tables 13.4, 13.5); of a boot, the bursts that timed out: of copy A and of copy B the offset of the first, and where
each of them starts (12 R323). -/
structure Mailbox where
  busy    : Bool := true
  done    : Bool := false
  err     : Bool := false
  lost    : Bool := false
  code    : BitVec 8 := 0
  token   : BitVec 8 := 0
  opcode  : BitVec 8 := 0
  args    : Args := {}
  res     : Results := {}
  buf     : Memory := []
  job     : Job := .boot
  tmoA    : Option Nat := none
  tmoB    : Option Nat := none
  tmos    : List Addr := []
  deriving DecidableEq, Repr, Inhabited

/-- One structural section as last loaded (12 R330): TYPE, COUNT, body. -/
structure Section where
  type  : Nat
  count : Nat
  body  : List Byte
  deriving DecidableEq, Repr, Inhabited

/-- The boot status registers (12 Tables 12.13-12.15) and the structural sections last loaded. -/
structure BootStat where
  safe    : Bool := false
  done    : Bool := false
  active  : BitVec 2 := 0
  reasonB : BitVec 4 := 0
  reasonA : BitVec 4 := 0
  errA    : BitVec 18 := 0
  errB    : BitVec 18 := 0
  seq     : BitVec 32 := 0
  trail   : BitVec 256 := 0
  loaded  : List Section := []
  deriving DecidableEq, Repr, Inhabited

/-- The signals of the BOOT port in one port cycle, which is the CFG_CLK period that begins with ccyc `ccyc` (02 R35, R36, R65): a request,
a write beat, a read beat and a write response, where there is one, and the two credit pulses. -/
structure BootCycle where
  ccyc  : Nat := 0
  rq    : Option RqOut := none
  wd    : Option WdOut := none
  rd    : Option RdBeat := none
  wr    : Option WrResp := none
  rqCrd : Bool := false
  wdCrd : Bool := false
  deriving DecidableEq, Repr, Inhabited

/-- The BOOT port (02 R35, R65): PORT_EN, its credits (R56), the tags outstanding in each direction (R46), and the port cycles of the
command in progress, or of the latest one, oldest first. -/
structure BootPort where
  en     : Bool := false
  rqCred : Nat := 0
  wdCred : Nat := 0
  rtags  : BitVec 4 := 0
  wtags  : BitVec 4 := 0
  cycles : List BootCycle := []
  deriving DecidableEq, Repr, Inhabited

/-! ### Power, quiesce, safety -/

/-- Power states (14 Tables 14.1, 14.8). -/
inductive PwrState where
  | run | doze | retain | offRdy | entering | waking | off
  deriving DecidableEq, Repr, Inhabited

/-- Power control (14 Tables 14.2, 14.7-14.9): `dozeW` is the ccyc of the wake from DOZE (R351), `dozePins` the record of
R369, `dozeClosed` the domains closed at DOZE entry and since not opened, `inWake` that a wake from RETAIN is under way,
`lowAt` the ccyc at the end of which a low-power state was entered (R349), `ackIn` a CORE_PSW_ACK at 1 that no TICK edge has sampled yet,
with what the wake then finds (R348). -/
structure Power where
  st        : PwrState := .waking
  target    : BitVec 2 := 0
  wakeAtEn  : Bool := false
  por       : Bool := true
  sys       : Bool := false
  wake      : Bool := false
  fallback  : Bool := false
  wakeT     : BitVec 64 := 0
  pswEn     : Bool := true
  pswAck    : Bool := true
  sramRet   : Bool := false
  offRdy    : Bool := false
  dozeW     : Option Nat := none
  dozePins  : Table (Option Nat) := []
  dozeClosed : BitVec 128 := 0
  inWake    : Bool := false
  lowAt     : Option Nat := none
  ackIn     : Option (BitVec 128 × WakeCheck) := none
  deriving DecidableEq, Repr, Inhabited

/-- SRST_STAT (14 Table 14.10) and cycle a of a soft reset in progress (14 R359). -/
structure SoftReset where
  orphW : BitVec 8 := 0
  orphR : BitVec 8 := 0
  start : Option Nat := none
  deriving DecidableEq, Repr, Inhabited

/-- A quiesce in progress (14 R364): the domain and the channels that have still to stop. -/
structure Quiesce where
  dom   : Nat
  chans : List Nat
  deriving DecidableEq, Repr, Inhabited

/-- The domain handshakes (03 R86-R88, 14 R364): PD_REQ at the input and as AO last sampled it at a TICK edge, ACK and NACK
with their two TICK stages (01 R411). -/
structure PowerDomains where
  pin     : BitVec 128 := 0
  req     : BitVec 128 := 0
  closed  : BitVec 128 := 0
  ackWant : BitVec 128 := 0
  ackD1   : BitVec 128 := 0
  ackOut  : BitVec 128 := 0
  nackWant : BitVec 128 := 0
  nackD1  : BitVec 128 := 0
  nackOut : BitVec 128 := 0
  quiesces : List Quiesce := []
  nackValid : Bool := false
  nackDom : BitVec 7 := 0
  nackCh  : BitVec 10 := 0
  deriving DecidableEq, Repr, Inhabited

/-- Brown-out (14 Table 14.13) with the input VMON_LOW and its two TICK stages (03 R84, 01 R26), safety event and freezes (17 R401, Table
17.5), correction count (06 Tables 6.5, 6.6); `nvStop` says that NV writes may not be presented in the present ccyc (14 R370, R371), `rails`
lists the mismatches and `eccNow` counts the corrections of the present ccyc. -/
structure Monitors where
  vmonPin : Bool := false
  vmonS1  : Bool := false
  vmon    : Bool := false
  nvStop  : Bool := false
  halts   : BitVec 16 := 0
  safEn   : Bool := false
  safEvt  : Event := 0
  frzSched : Bool := false
  frzArb  : BitVec 8 := 0
  rails   : List RailUnit := []
  eccCnt  : BitVec 16 := 0
  eccSrc  : BitVec 3 := 0
  eccThr  : BitVec 16 := 0x0100
  eccNow  : Nat := 0
  deriving DecidableEq, Repr, Inhabited

/-! ### Gates -/

/-- The engine's record of a tile (10 R261, R271). -/
structure TileRec where
  en      : Bool := false
  drained : Bool := false
  deriving DecidableEq, Repr, Inhabited

/-- A beat on the gate ring (10 Table 10.7); VALID is that there is one. -/
structure RingBeat where
  kind : BitVec 4
  tile : TileNo
  quad : BitVec 7
  wen  : BitVec 4
  data : BitVec 128
  par  : Bool
  deriving DecidableEq, Repr, Inhabited

/-- The beats at a ring stop: those that RG_IN carries, and those that RG_OUT carries one GR_CLK cycle later (10 R247, R272). -/
structure Stop where
  rgIn  : List RingBeat := []
  rgOut : List RingBeat := []
  deriving DecidableEq, Repr, Inhabited

/-- The engine side of the gates (10 R261, R276, Table 10.16; 11 Table 11.6). `rstN` is GR_RST_N; `tx`, `rx` and `stops` are the beats
that GR_TX, GR_RX and the stops carry for the commands of the present ccyc, oldest first (10 R247, R272). `held` is the host access that 10 R265
holds back: tile, word and, of a write, its data. -/
structure Gates where
  rstN     : Bool := false
  tx       : List RingBeat := []
  rx       : List RingBeat := []
  stops    : Table Stop := []
  map      : BitVec 128 := 0
  evt      : BitVec 128 := 0
  ringValid : Bool := false
  ringTile : TileNo := 0
  ringUntaken : Bool := false
  ringTimeout : Bool := false
  ringParity : Bool := false
  ringKind : BitVec 4 := 0
  stage    : Table Word := []
  shadow   : Table (Table Word) := []
  pendSh   : Table (Option (Table Word)) := []
  recs     : Table TileRec := []
  held     : Option (Nat × Nat × Option Word) := none
  deriving DecidableEq, Repr, Inhabited

/-- A denial log entry (10 Table 10.15). -/
structure DenyEntry where
  req     : GateReq
  matched : Bool
  region  : BitVec 5
  detail  : BitVec 4
  seq     : BitVec 16
  deriving DecidableEq, Repr, Inhabited

/-- A write whose beats the checker still passes or discards (10 R249, R255, R258). -/
structure TileWrite where
  req     : GateReq
  deny    : Option (BitVec 4)
  matched : Bool := false
  region  : BitVec 5 := 0
  beat    : Nat := 0
  poison  : Bool := false
  deriving DecidableEq, Repr, Inhabited

/-- A GERR answer owed by the checker (10 R255): the beats of a read still owed, or one write response. -/
structure GateAnswer where
  write  : Bool
  tag    : Tag
  detail : BitVec 4
  left   : Nat
  deriving DecidableEq, Repr, Inhabited

/-- A gate tile (10 R249-R271): `up` is U_PORT_EN as sampled last, `rqAllow` and `wdAllow` the initial allowance still to be returned on U
and `dRqCred` and `dWdCred` the credits held on D (R250), `beats` the write beats accepted and not yet passed or discarded, `outq` the
allowed requests not yet presented on D, `apply` that APPLY has arrived, `oldRules` the rules that an APPLY not yet reported has replaced
(R263), `offTclk` that a TCLK with EN 0 has been (R260). From `dReq` on, what it presents: a request and a write beat on D, a read beat and
a write response on U, and the two credits on U. -/
structure Tile where
  chkOn    : Bool := false
  en       : Bool := false
  drained  : Bool := false
  offTclk  : Bool := false
  denyRst  : Bool := false
  rules    : Table Word := []
  staging  : Table Word := []
  oldRules : Option (Table Word) := none
  denyCnt  : BitVec 16 := 0
  lost     : BitVec 8 := 0
  log      : List DenyEntry := []
  reports  : BitVec 6 := 0
  input    : List GateReq := []
  up       : Bool := false
  rqAllow  : Nat := 0
  wdAllow  : Nat := 0
  dRqCred  : Nat := 0
  dWdCred  : Nat := 0
  beats    : List WdBeat := []
  writes   : List TileWrite := []
  outq     : List GateReq := []
  answers  : List GateAnswer := []
  apply    : Bool := false
  dReq     : Option GateReq := none
  dBeat    : Option WdBeat := none
  uRead    : Option RdBeat := none
  uWrite   : Option WrResp := none
  uRqCrd   : Bool := false
  uWdCrd   : Bool := false
  deriving DecidableEq, Repr, Inhabited

/-! ### Guyline, digests, commits, roll calls -/

/-- Roles in the cascade (11 Table 11.7, GL_ID.ROLE). -/
inductive Role where
  | standalone | master | member
  deriving DecidableEq, Repr, Inhabited

/-- One guyline port (11 R282, R287, R288): its outputs TXC and TXD, link state, own frames ready, forwarded frames, and the frame
last sent with its CRC; the port is free from tick `freeAt` on, 34 ticks after the send tick, and `start` says that the next TICK edge
starts a frame. From `rxc` on, the receive side: RXC, RXD, the receive FIFO, the nibble that leaves it in the present tick first, and the
nibbles of the frame under reception that have not left it, that one first. -/
structure Link where
  txc    : Bool := false
  txd    : BitVec 4 := 0
  up     : Bool := false
  own    : List Frame := []
  fwd    : List Frame := []
  freeAt : Nat := 0
  last   : Option (Frame × BitVec 16) := none
  start  : Bool := false
  rxc    : Bool := false
  rxd    : BitVec 4 := 0
  fifo   : List (BitVec 4) := []
  rx     : List (BitVec 4) := []
  deriving DecidableEq, Repr, Inhabited

/-- The guyline side (11 Table 11.7, R282-R297); `rxGevt` holds the GEVT frames under reception, with the tick in which each is
checked, its DEL and its mask, `rxFwd` the frames to be forwarded, with the tick by which each has been received (R297), and `lateDel` the
masks delivered in the next ccyc (R295). -/
structure Guyline where
  role     : Role := .standalone
  instId   : BitVec 16 := 0
  instCount : BitVec 17 := 0
  upUsed   : Bool := false
  dnUsed   : Bool := false
  syncPer  : BitVec 16 := 0
  tsBound  : BitVec 8 := 0
  lead     : BitVec 23 := 0
  tail     : BitVec 24 := 0
  acq      : Bool := false
  acqOnce  : Bool := false
  offset   : BitVec 8 := 0
  samples  : List Nat := []
  steps    : BitVec 8 := 0
  late     : BitVec 8 := 0
  drop     : BitVec 8 := 0
  bad      : BitVec 8 := 0
  nextSync : Nat := 0
  nextEcho : Nat := 0
  syncSeen : Nat := 0
  upLink   : Link := {}
  dnLink   : Link := {}
  mask     : BitVec 64 := 0
  armed    : List (BitVec 64 × BitVec 64) := []
  lastDel  : BitVec 64 := 0
  rxGevt   : List (Nat × BitVec 64 × BitVec 64) := []
  rxFwd    : List (Nat × Bool × Frame) := []
  lateDel  : BitVec 64 := 0
  deriving DecidableEq, Repr, Inhabited

/-- Users of the SHA-256 unit (13 R346): a rehash for the latest roll call joined, for an earlier one, or that of a DIGEST. -/
inductive ShaUser where
  | roll
  | oldRoll
  | digest
  deriving DecidableEq, Repr, Inhabited

/-- Epoch and digests (11 R298, R299; 13 R339); `users` are the rehashes that the SHA-256 unit serves, the first in service. -/
structure Digests where
  epoch   : BitVec 32 := 0
  recd    : BitVec 256 := 0
  act     : BitVec 256 := 0
  users   : List ShaUser := []
  recPend : Bool := false
  deriving DecidableEq, Repr, Inhabited

/-- The commit registers (11 R303, R304, Table 11.7), with what the arming latched, which effects are made, the tiles that
have still to apply, the wrap of its peg commit, the shadows as they stood at the arming, and the first of the free values that say
which fields changed since then take the new value (R305). -/
structure Commit where
  sel    : BitVec 10 := 0
  gates  : BitVec 128 := 0
  armed  : Bool := false
  t      : BitVec 64 := 0
  ep     : BitVec 32 := 0
  selL   : BitVec 10 := 0
  gatesL : BitVec 128 := 0
  pegs   : Bool := false
  main   : Bool := false
  tiles  : BitVec 128 := 0
  wrap   : Option Nat := none
  snapR  : Routes := {}
  snapP  : Table (BitVec 16) := []
  snapQ  : Table (BitVec 3) := []
  key    : Nat := 0
  deriving DecidableEq, Repr, Inhabited

/-- A roll call (11 R300, R301, Table 11.7). `due` is this instance's own pending answer. -/
structure Roll where
  done   : Bool := false
  active : Bool := false
  round  : BitVec 16 := 0
  e      : BitVec 32 := 0
  tr     : BitVec 64 := 0
  seen   : List Nat := []
  bad    : List (Nat × Nat) := []
  due    : Option (BitVec 16 × BitVec 32 × BitVec 64) := none
  fresh  : Bool := false
  nbad   : BitVec 17 := 0
  named  : List (Nat × Nat) := []
  deriving DecidableEq, Repr, Inhabited

/-! ### Configuration port, test -/

/-- An answer on the configuration port: the first ccyc of the CFG_CLK cycle in which CFG_ACK is 1, and what the block then
drives (15 R374, R375). -/
structure HostAnswer where
  due  : Nat
  data : Word := 0
  err  : Bool := false
  deriving DecidableEq, Repr, Inhabited

/-- The configuration port: capture registers (15 Table 15.2), the outputs (15 Table 15.1), the answer to come, the first
ccyc in which the next access can take effect, the accesses that the host offers while the port serves another or until the
next CFG_CLK cycle (15 R374), the registers written in the present ccyc, and the channel whose A registers were, with these as they
stood before (01 R21). -/
structure HostPort where
  capCh     : Word := 0
  capRidge  : Word := 0
  capCommit : Word := 0
  capRec    : BitVec 224 := 0
  capAct    : BitVec 224 := 0
  ack       : Bool := false
  rdata     : Word := 0
  err       : Bool := false
  rpar      : Bool := false
  ans       : Option HostAnswer := none
  freeAt    : Nat := 0
  offered   : List Instr := []
  wrote     : List Nat := []
  oldA      : Option (Nat × Regs4 48) := none
  deriving DecidableEq, Repr, Inhabited

/-- What drives the block's outputs under test (17 Table 17.6). -/
inductive OutMode where
  | functional | boundary | isolation
  deriving DecidableEq, Repr, Inhabited

/-- The outputs of a port (02 Table 2.1). -/
structure PortOuts where
  clk      : Bool := false
  portEn   : Bool := false
  rqValid  : Bool := false
  rqWrite  : Bool := false
  rqAddr   : Addr := 0
  rqSize   : BitVec 3 := 0
  rqLen    : BitVec 3 := 0
  rqTag    : Tag := 0
  rqPriv   : Bool := false
  rqMid    : BitVec 6 := 0
  rqDom    : Dom := 0
  rqCls    : BitVec 2 := 0
  rqPar    : BitVec 3 := 0
  wdValid  : Bool := false
  wdData   : BitVec 256 := 0
  wdChk    : BitVec 19 := 0
  wdStrb   : BitVec 32 := 0
  wdLast   : Bool := false
  wdPoison : Bool := false
  wdPar    : Bool := false
  deriving DecidableEq, Repr, Inhabited

/-- The functional outputs of the block as the wrapper drives them (17 R408): M0 to M7 and BOOT (02 Table 2.1), EVT_OUT, IRQ, PD_ACK and
PD_NACK (03 Table 3.13), the power control (14 Table 14.2), the configuration port (15 Table 15.1), TXC and TXD upstream and downstream
(11 Table 11.1), and the engine's end of the ring (10 R247, R248). -/
structure OutPins where
  m0 : PortOuts := {}
  m1 : PortOuts := {}
  m2 : PortOuts := {}
  m3 : PortOuts := {}
  m4 : PortOuts := {}
  m5 : PortOuts := {}
  m6 : PortOuts := {}
  m7 : PortOuts := {}
  boot     : PortOuts := {}
  evt      : BitVec 512 := 0
  irq      : BitVec 4 := 0
  pdAck    : BitVec 128 := 0
  pdNack   : BitVec 128 := 0
  pswEn    : Bool := false
  sramRet  : Bool := false
  offRdy   : Bool := false
  cfgClk   : Bool := false
  cfgAck   : Bool := false
  cfgRdata : Word := 0
  cfgRpar  : Bool := false
  cfgErr   : Bool := false
  gl       : BitVec 10 := 0
  grClk    : Bool := false
  grRstN   : Bool := false
  grTx     : BitVec 152 := 0
  deriving DecidableEq, Repr, Inhabited

/-- The IEEE 1500 wrapper and the memory BIST (17 R408-R410): TM, WRSTN, SCAN_EN, WIR, WBY, the boundary register, what drives the outputs, and
the outputs where it is not the function; the parallel port, a BIST in progress, the MBIST result register, WSO, and the bits that the
latest command shifted out on it, the first one first. -/
structure Test where
  tm    : Bool := false
  wrstN : Bool := true
  scanEn : Bool := false
  wir   : BitVec 4 := 0
  wby   : Bool := false
  wbr   : Boundary := {}
  mode  : OutMode := .functional
  outs  : Option OutPins := none
  wpi   : BitVec 16 := 0
  wpo   : BitVec 16 := 0
  run   : Bool := false
  stat  : BitVec 16 := 0
  wso   : Bool := false
  shifted : List Bool := []
  deriving DecidableEq, Repr, Inhabited

/-- The whole block, but for what `State` adds. -/
structure Block where
  clk      : Clock := {}
  irq      : Irq := {}
  flog     : FaultLog := {}
  lines    : Table ReqLine := []
  loadTill : Nat := 0
  shadow   : Routes := {}
  /-- The route shadows as at the end of the ccyc before, where one was written in the present ccyc (15 R385). -/
  shadowOld : Option Routes := none
  routes   : Routes := {}
  ev       : Events := {}
  chans    : Table Channel := []
  /-- What a cause of the present ccyc may take back (04 R99). -/
  before   : Table (Option Before) := []
  movers   : Table Mover := []
  ures     : BitVec 7 := 0
  tres     : BitVec 7 := 0
  ports    : Table Port := []
  pegSh    : Table (BitVec 16) := []
  pegAct   : Table (BitVec 16) := []
  pegCommits : List PegCommit := []
  wins     : List Window := []
  nvwins   : List Window := []
  prog     : Memory := []
  cmd      : Mailbox := {}
  bs       : BootStat := {}
  boot     : BootPort := {}
  pwr      : Power := {}
  srst     : SoftReset := {}
  pd       : PowerDomains := {}
  mon      : Monitors := {}
  gate     : Gates := {}
  tiles    : Table Tile := []
  gl       : Guyline := {}
  dig      : Digests := {}
  com      : Commit := {}
  roll     : Roll := {}
  cfg      : HostPort := {}
  test     : Test := {}
  deriving DecidableEq, Repr, Inhabited

/-- The state: the block, with its content at the start of the latest CFG_CLK cycle, which a host read returns (15 R374). -/
structure State extends Block where
  start    : Block := {}
  /-- The model's own counter of free values (log entry 6). -/
  free     : Nat := 0
  /-- The commands that wait, first in, first out. -/
  pending  : List Instr := []
  deriving DecidableEq, Repr, Inhabited

/-- The block right after PORST_N is released, before the boot (13 R345; 14 R358, Table 14.5, column PORST_N): every field
at the value of its table's Reset column, STATE WAKING, POR 1, BUSY 1 and the boot in progress. -/
def State.reset : State := {}

end Sys2Proof.Machine
end

