-- ==== Sys2Proof/Machine/Flags.lean ====
section
/-! DEFINITION. Flags: the interrupt causes (03 R81-R83), the fault log (09 R243), the count of corrected errors (06 R180),
raising logical events (03 R76-R78), and the codes that registers and requests carry for classes, states and causes. -/

namespace Sys2Proof.Machine

/-! ### Codes -/

/-- CH_CFG.CLASS and RQ_CLS (04 Table 4.6, 02 Table 2.3). -/
def clsCode : Cls → BitVec 2
  | .bulk => 0 | .timed => 1 | .urgent => 2

/-- CH_STAT.STATE (04 Table 4.4). -/
def stateCode : ChState → Nat
  | .idle => 0 | .ready => 1 | .running => 2 | .waiting => 3 | .parked => 4 | .halted => 5 | .aborting => 6

/-- CH_STAT.WAIT_ON (04 Table 4.5). -/
def waitCode : WaitOn → Nat
  | .none => 0 | .line => 1 | .event => 2 | .instant => 3 | .gevent => 4 | .fenced => 5 | .fetch => 6

/-- FAULT_INFO.CAUSE (09 Table 9.2). -/
def causeCode : Cause → BitVec 4
  | .none => 0 | .align => 1 | .bus => 2 | .gate => 3 | .ecc => 4 | .illegal => 5 | .fetch => 6 | .deadline => 7
  | .late => 8 | .brownout => 9 | .quiesce => 10

/-- PWR_STAT.STATE (14 Table 14.8); an unpowered block has no register to read. -/
def pwrCode : PwrState → Nat
  | .run => 0 | .doze => 1 | .retain => 2 | .offRdy => 3 | .entering => 4 | .waking => 5 | .off => 7

/-- Directions (09 Table 9.3). -/
def dirNone : BitVec 2 := 0
/-- See `dirNone`. -/
def dirRead : BitVec 2 := 1
/-- See `dirNone`. -/
def dirWrite : BitVec 2 := 2
/-- See `dirNone`. -/
def dirFetch : BitVec 2 := 3

/-- The fault cause of an error response (02 Table 2.4). -/
def respCause (r : BitVec 3) : Cause :=
  match r.toNat with
  | 1 => .bus | 2 => .gate | 3 => .bus | 4 => .ecc | _ => .none

/-- The detail a response passes on: of TERR and GERR its own, of the others 0 (02 R51, 09 Table 9.4). -/
def respDetail (r : BitVec 3) (d : BitVec 4) : BitVec 4 := if r = 1 ∨ r = 2 then d else 0

/-! ### Interrupt causes -/

/-- Note that the engine sets the W1C bit `b` of the register at word offset `w` in this ccyc (01 R21). -/
def noteSet (w b : Nat) (s : State) : State := { s with irq := { s.irq with fresh := insertNat (32 * w + b) s.irq.fresh } }

/-- The bits of the register at word offset `w` that a host write of `m` clears: not those set in this ccyc (01 R21). -/
def w1cMask (s : State) (w : Nat) (m : Word) : Word :=
  s.irq.fresh.foldl (fun m k => if k / 32 = w then setBit m (k % 32) false else m) m

/-- The host has written the register at word offset `w` in this ccyc: an RW field of it keeps the host's value (01 R21). -/
def hostWon (w : Nat) (s : State) : Bool := s.cfg.wrote.contains w

/-- Set cause bit `k` (03 R82, Table 3.10), of IRQ_CAUSE_LO or IRQ_CAUSE_HI (word offsets 0x40, 0x41). -/
def setCause (k : Nat) (s : State) : State :=
  noteSet (0x40 + k / 32) (k % 32) { s with irq := { s.irq with cause := setBit s.irq.cause k true } }

/-- What the present ccyc did to cause bit `k` is undone. -/
def takeBackCause (k : Nat) (s : State) : State :=
  { s with irq := { s.irq with
    cause := setBit s.irq.cause k (s.irq.old.getLsbD k)
    fresh := s.irq.fresh.filter (· != 32 * (0x40 + k / 32) + k % 32) } }

/-- The level of IRQ group `g` as the causes and masks stand (03 R81). -/
def irqLevel (q : Irq) (g : Nat) : Bool := (fld q.cause (16 * g) 16 &&& fld q.mask (16 * g) 16 : BitVec 16) != 0

/-- The four levels. -/
def irqLevels (q : Irq) : BitVec 4 :=
  BitVec.ofNat 4 (flag32 0 (irqLevel q 0) + flag32 1 (irqLevel q 1) + flag32 2 (irqLevel q 2) + flag32 3 (irqLevel q 3))

/-! ### Fault log -/

/-- The order of entries of one ccyc: ascending KIND, then CH, then PORT, then TAG (09 R243). -/
def logBefore (a b : LogEntry) : Bool :=
  let k := fun (e : LogEntry) => ((e.kind.toNat * 1024 + e.ch.toNat) * 8 + e.port.toNat) * 64 + e.tag.toNat
  decide (k a < k b)

/-- One entry is lost: LOST, unless the host has written it in this ccyc (01 R21), and the cause (09 R243). -/
def loseEntry (s : State) : State :=
  setCause 7 { s with flog := { s.flog with lost := if hostWon 0x100 s then s.flog.lost else satAdd s.flog.lost 1 } }

/-- Write a fault-log entry with the present time, in its place among those of this ccyc; with the log full the last of these
is lost (09 R243). -/
def logFault (e : LogEntry) (s : State) : State :=
  let old := s.flog.entries.length - s.flog.fresh
  let e' := { e with time := fld s.clk.ridge 0 32 }
  let all := s.flog.entries.take old ++ insertBy logBefore e' (s.flog.entries.drop old)
  if 64 ≤ s.flog.entries.length then
    loseEntry { s with flog := { s.flog with entries := all.take 64 } }
  else
    { s with flog := { s.flog with entries := all, fresh := s.flog.fresh + 1 } }

/-- Free the oldest entry (09 Table 9.12); nothing with the log empty. -/
def popLog (s : State) : State :=
  match s.flog.entries with
  | [] => s
  | _ :: r => { s with flog := { s.flog with entries := r, head := s.flog.head + 1, fresh := min s.flog.fresh r.length } }

/-- An entry's four words (09 Tables 9.13, 9.14). -/
def logWord (e : LogEntry) (k : Nat) : Word :=
  match k with
  | 0 => BitVec.ofNat 32 (flag32 31 true + at32 26 e.kind.toNat + at32 23 e.port.toNat + at32 21 e.dir.toNat +
      at32 18 e.resp.toNat + at32 14 e.detail.toNat + at32 10 e.cause.toNat + e.ch.toNat)
  | 1 => BitVec.ofNat 32 (at32 24 e.tag.toNat + (fld e.addr 32 16).toNat)
  | 2 => fld e.addr 0 32
  | _ => e.time

/-- The entry of a channel's fault record (09 Table 9.10): CH_HALT 0x01 or CH_SECOND 0x02. -/
def recordEntry (kind : BitVec 5) (ch : Nat) (r : FaultRec) : LogEntry :=
  { kind := kind, port := r.port, dir := r.dir, resp := r.resp, detail := r.detail, cause := if kind = 1 then causeCode r.cause else 0,
    ch := BitVec.ofNat 10 ch, tag := r.tag, addr := r.addr }

/-! ### Corrected errors -/

/-- COUNT grows by one; the increment that makes it equal to THRESH sets the cause (06 R180). -/
def growCount (s : State) : State :=
  let c := satAdd s.mon.eccCnt 1
  let s' := { s with mon := { s.mon with eccCnt := c } }
  if c ≠ s.mon.eccCnt ∧ c = s.mon.eccThr then setCause 4 s' else s'

/-- Count a correction made at check point `src` (06 R178, R180). -/
def countCorrection (src : BitVec 3) (s : State) : State :=
  growCount { s with mon := { s.mon with eccSrc := src, eccNow := s.mon.eccNow + 1 } }

/-- The host writes COUNT: the corrections of this ccyc are counted on top of the written value (06 Table 6.5), and only those
increments can set the cause. -/
def writeCount (v : BitVec 16) (s : State) : State :=
  let s := { s with mon := { s.mon with eccCnt := v } }
  (List.range s.mon.eccNow).foldl (fun s _ => growCount s) (if s.mon.eccNow = 0 then s else takeBackCause 4 s)

/-! ### Events -/

/-- Raise a logical event in the present ccyc; several raises of one event are one (03 R77). -/
def raiseEvent (e : Event) (s : State) : State :=
  { s with ev := { s.ev with raised := insertNat e.toNat s.ev.raised, direct := insertNat e.toNat s.ev.direct } }

end Sys2Proof.Machine
end

