-- ==== Sys2Proof/Machine/Ops.lean ====
section
/-! DEFINITION. The shared operations: accessors of the numbered parts, tags and requests of a channel, the mailbox's
completion, program addresses and the prefetch buffer, and the states of a channel. -/

/-- A state of the block of which nothing is known: after scan or memory BIST (17 R409), and for what a command leaves whose
effects are undefined (13 R335). -/
opaque Sys2Proof.Config.freeState : Nat → Sys2Proof.Machine.State

namespace Sys2Proof.Machine

/-! ### Numbered parts -/

/-- Channel `c`. -/
def chan (s : State) (c : Nat) : Channel := get {} s.chans c
/-- Replace channel `c`. -/
def setChan (c : Nat) (v : Channel) (s : State) : State := { s with chans := put {} s.chans c v }
/-- Change channel `c`. -/
def updChan (c : Nat) (f : Channel → Channel) (s : State) : State := setChan c (f (chan s c)) s
/-- Port `n`. -/
def port (s : State) (n : Nat) : Port := get {} s.ports n
/-- Replace port `n`. -/
def setPort (n : Nat) (v : Port) (s : State) : State := { s with ports := put {} s.ports n v }
/-- Change port `n`. -/
def updPort (n : Nat) (f : Port → Port) (s : State) : State := setPort n (f (port s n)) s
/-- Mover `m`. -/
def mover (s : State) (m : Nat) : Mover := get {} s.movers m
/-- Replace mover `m`. -/
def setMover (m : Nat) (v : Mover) (s : State) : State := { s with movers := put {} s.movers m v }
/-- Tile `g`. -/
def tile (s : State) (g : Nat) : Tile := get {} s.tiles g
/-- Replace tile `g`. -/
def setTile (g : Nat) (v : Tile) (s : State) : State := { s with tiles := put {} s.tiles g v }
/-- The engine's record of tile `g`. -/
def tileRec (s : State) (g : Nat) : TileRec := get {} s.gate.recs g
/-- Replace the engine's record of tile `g`. -/
def setTileRec (g : Nat) (v : TileRec) (s : State) : State := { s with gate := { s.gate with recs := put {} s.gate.recs g v } }
/-- Line `n`. -/
def line (s : State) (n : Nat) : ReqLine := get {} s.lines n
/-- Replace line `n`. -/
def setLine (n : Nat) (v : ReqLine) (s : State) : State := { s with lines := put {} s.lines n v }

/-- The master ports M0 to M7. -/
def portRange : List Nat := List.range 8

/-- Apply a change to every master port. -/
def mapPorts (f : Port → Port) (s : State) : State := portRange.foldl (fun s n => updPort n f s) s

/-- The channels that meet a condition, in ascending order. A channel not listed is an unassigned IDLE one. -/
def chansWhere (s : State) (p : Nat → Channel → Bool) : List Nat := keysWhere s.chans p

/-- The present core cycle (01 R25). -/
def coreCycle (s : State) : Nat := s.clk.now - s.clk.coreBase

/-- The block is in RUN or on its way to a low-power state (14 R347, R349). -/
def coreUp (s : State) : Bool := s.pwr.st == .run || s.pwr.st == .entering

/-- CORE is clocked: the block is in RUN or on its way to a low-power state, and core cycle 0 has begun (01 R25). -/
def coreOn (s : State) : Bool := coreUp s && decide (s.clk.coreBase ≤ s.clk.now)

/-- Take one free value's index (log entry 6). -/
def takeFree (s : State) : State := { s with free := s.free + 1 }

/-- The tables and the log of a state in the forms that the block's registers and RAMs admit. -/
def representable (s : State) : State :=
  { s with
    flog := { s.flog with entries := s.flog.entries.take 64 }
    chans := tableOf {} s.chans
    prog := tableOf 0 (s.prog.filter (fun e => decide (e.1 < 0x40000)))
    cmd := { s.cmd with buf := tableOf 0 (s.cmd.buf.filter (fun e => decide (e.1 < 0x1000))) } }

/-! ### The configuration port (15 R373-R375) -/

/-- The present CFG_CLK cycle begins with the present ccyc (01 R25). -/
def cfgEdge (s : State) : Bool := s.clk.now % 4 == 0

/-- The host writes the register at word offset `w` in the present ccyc (01 R21). -/
def hostWrote (w : Nat) (s : State) : State := { s with cfg := { s.cfg with wrote := insertNat w s.cfg.wrote } }

/-- The port can serve an access in the present ccyc: a CFG_CLK cycle begins, and no access is in service or offered before
(15 R374). -/
def portReady (s : State) : Bool :=
  cfgEdge s && decide (s.cfg.freeAt ≤ s.clk.now) && s.cfg.offered.isEmpty && s.gate.held.isNone

/-- The access in service is answered: CFG_ACK in the next CFG_CLK cycle, and the next access takes effect two cycles after
it (15 R374). -/
def answer (data : Word) (err : Bool) (s : State) : State :=
  let due := 4 * (s.clk.now / 4) + 4
  { s with cfg := { s.cfg with ans := some { due := due, data := data, err := err }, freeAt := due + 8 } }

/-- The block as it stood when the present CFG_CLK cycle began, before the engine's updates in it: what a host read returns (15 R374).
DESIGN CHOICE: of a per-channel register too, whose ccyc among the four of the cycle the engine chooses (04 R91; log entry 18). -/
def atStart (s : State) : State := { s with toBlock := s.start }

/-- A host read is answered. -/
def hostRead (v : Word) (s : State) : State := answer v false s

/-- AO is off: no access is accepted, and the outputs of the port are tied to 0 (15 R377, R378), but with TM 1 (17 R409). -/
def portOff (s : State) : State :=
  if s.test.tm then { s with cfg := { s.cfg with ans := none } }
  else { s with cfg := { s.cfg with ack := false, rdata := 0, err := false, rpar := false, ans := none } }

/-- The capture registers as never loaded (15 R387). -/
def clearCaptures (s : State) : State :=
  { s with cfg := { s.cfg with capCh := 0, capRidge := 0, capCommit := 0, capRec := 0, capAct := 0 } }

/-- A host access with effect `f`, as command `i`: it takes effect now, or waits at the port (15 R374; log entry 18). -/
def hostAccess (i : Instr) (f : State → State) (s : State) : State :=
  if s.pwr.st = .off then portOff s
  else if portReady s then f (answer 0 false s)
  else { s with cfg := { s.cfg with offered := s.cfg.offered ++ [i] } }

/-! ### Tags and requests of a channel -/

/-- The outstanding read tags of a port. -/
def rtagList (p : Port) : List (Nat × RTag) := p.rtags.filterMap (fun e => e.2.map (fun t => (e.1, t)))
/-- The outstanding write tags of a port. -/
def wtagList (p : Port) : List (Nat × WTag) := p.wtags.filterMap (fun e => e.2.map (fun t => (e.1, t)))

/-- CH_TAGS.RTAGS (04 Table 4.7): orphaned tags are no channel's (14 R360). -/
def rtagCount (s : State) (ch : Nat) : Nat :=
  (portRange.map (fun n => ((rtagList (port s n)).filter (fun t => t.2.ch == ch && !t.2.orphan)).length)).sum
/-- CH_TAGS.WTAGS (04 Table 4.7, 08 R211). -/
def wtagCount (s : State) (ch : Nat) : Nat :=
  (portRange.map (fun n => ((wtagList (port s n)).filter (fun t => t.2.ch == ch && !t.2.orphan)).length)).sum
/-- No tag of the channel is outstanding. -/
def noTags (s : State) (ch : Nat) : Bool := rtagCount s ch == 0 && wtagCount s ch == 0
/-- No tag of any channel is outstanding on M0 to M7, orphaned tags excepted (14 R349, R359). -/
def noTagsAtAll (s : State) : Bool :=
  portRange.all (fun n => (rtagList (port s n)).all (fun t => t.2.orphan) && (wtagList (port s n)).all (fun t => t.2.orphan))
/-- No tag is outstanding on M0 to M7, orphaned ones included (14 R359 step 2). -/
def allTagsIn (s : State) : Bool :=
  portRange.all (fun n => (rtagList (port s n)).isEmpty && (wtagList (port s n)).isEmpty)
/-- An orphaned tag is outstanding (13 Table 13.6). -/
def anyOrphan (s : State) : Bool :=
  portRange.any (fun n => (rtagList (port s n)).any (fun t => t.2.orphan) || (wtagList (port s n)).any (fun t => t.2.orphan))

/-- The ccyc in which the present port cycle of a port began (01 R25). -/
def cycleStart (s : State) (p : Port) : Nat := if p.ratio then s.clk.now - coreCycle s % 2 else s.clk.now

/-- A port cycle of a port, in ccyc (01 R25). -/
def cycles (p : Port) : Nat := if p.ratio then 2 else 1

/-- A beat of the burst of a write tag is valid in the present port cycle. -/
def beatNow (s : State) (p : Port) (t : WTag) : Bool := decide (0 < t.sent) && decide (cycleStart s p ≤ t.lastAt)

/-- A write burst of the channel has a beat in the present port cycle or still owed (02 R43). -/
def owesBeats (s : State) (ch : Nat) : Bool :=
  portRange.any (fun n =>
    (match (port s n).burst with | some b => b.ch == ch | none => false) ||
    (wtagList (port s n)).any (fun t => t.2.ch == ch && beatNow s (port s n) t.2))

/-- A read tag that gave the channel's fault, or a secondary error, has beats to come (09 Table 9.5). -/
def failingTag (s : State) (ch : Nat) : Bool :=
  portRange.any (fun n => (rtagList (port s n)).any (fun t => t.2.ch == ch && t.2.failed && !t.2.stale && !t.2.orphan))

/-- A tag of the MOVE or PUTI at which the channel halted is outstanding (09 R234). -/
def instrTags (s : State) (ch : Nat) : Bool :=
  portRange.any (fun n =>
    (rtagList (port s n)).any (fun t => t.2.ch == ch && t.2.cur && !t.2.fetch && !t.2.orphan) ||
    (wtagList (port s n)).any (fun t => t.2.ch == ch && t.2.cur && !t.2.orphan))

/-- Change every outstanding read tag of a port. -/
def mapRtags (f : RTag → RTag) (p : Port) : Port := { p with rtags := p.rtags.map (fun e => (e.1, e.2.map f)) }
/-- Change every outstanding write tag of a port. -/
def mapWtags (f : WTag → WTag) (p : Port) : Port := { p with wtags := p.wtags.map (fun e => (e.1, e.2.map f)) }

/-- The tags of a MOVE or PUTI that ends: its writes are of an earlier instruction from now on (09 R233), its reads are no
longer needed (08 R213). -/
def endTags (ch : Nat) (s : State) : State :=
  mapPorts (fun p => mapWtags (fun t => if t.ch = ch then { t with cur := false } else t)
    (mapRtags (fun t => if t.ch = ch then { t with stale := true, cur := false } else t) p)) s

/-- Fetches of the channel that are outstanding are no longer needed: its buffer is discarded (04 R103). -/
def staleFetch (ch : Nat) (s : State) : State :=
  mapPorts (mapRtags (fun t => if t.ch = ch ∧ t.fetch then { t with stale := true } else t)) s

/-- The age-counter key of a requester (07 R205). -/
def reqKey : Requester → Nat
  | .mover m => m.toNat
  | .fetch c => 64 + c.toNat

/-- Withdraw the channel's requests on every port: they are absent from the next ccyc, and a port cycle that one of them
has won is dead (07 R197, R198). Its unpresented writes wait to be launched again. -/
def withdraw (ch : Nat) (s : State) : State :=
  let s := mapPorts (fun p => { p with
    reqs := p.reqs.map (fun r => if r.ch = ch then { r with gone := true } else r) ++
      (p.grant.toList.filter (fun r => r.ch == ch)).map (fun r => { r with gone := true })
    grant := match p.grant with
      | some r => if r.ch = ch then none else some r
      | none => none }) s
  updChan ch (fun c => { c with run := match c.run with
    | some r => some { r with slots := r.slots.map (fun (sl : Slot) =>
        if (get none (port s r.geo.dport).wtags sl.tag.toNat : Option WTag).isSome then sl else { sl with launched := false }) }
    | none => none }) s

/-! ### Mailbox completion (13 R334) -/

/-- End the command in progress with a failure code (0: done) and results. -/
def finish (code : BitVec 8) (r : Results) (s : State) : State :=
  setCause (if code = 0 then 52 else 53)
    { s with cmd := { s.cmd with busy := false, done := decide (code = 0), err := decide (code ≠ 0), code := code,
                                 res := r, job := .none } }

/-- A fault of the channel is detected and not yet latched (09 R226). -/
def stopping (c : Channel) : Bool := c.held.isSome

/-- The channel as it stood before its own progress or its park in the present ccyc. -/
def earlier (s : State) (ch : Nat) : Option Channel := (get none s.before ch).map (·.chan)

/-- A PARK in progress ends by the state that its channel has reached (13 R338, Table 13.3; log entry 22); that of a channel which was
PARKED before, and which a fault has reached in the same ccyc, fails. -/
def endPark (s : State) : State :=
  match s.cmd.job with
  | .park ch => match (chan s ch).st with
    | .parked => finish (if stopping (chan s ch) && (earlier s ch).isNone then 6 else 0) {} s
    | .halted => finish 6 {} s
    | .idle => finish 5 {} s
    | .aborting => finish 5 {} s
    | _ => s
  | _ => s

/-- A quiesce no longer waits for a channel in this state (14 R364). -/
def stopped (c : Channel) : Bool := c.st == .parked || c.st == .halted || c.st == .idle || c.st == .aborting

/-- The quiesces in progress, without the channels that have stopped (14 R364). -/
def pruneQuiesces (s : State) : State :=
  { s with pd := { s.pd with quiesces := s.pd.quiesces.map (fun q => { q with chans := q.chans.filter (fun ch => !stopped (chan s ch)) }) } }

/-! ### Program addresses -/

/-- The program address `n` bytes on, modulo 2^48. -/
def PAddr.plus (p : PAddr) (n : Nat) : PAddr := { p with addr := p.addr + BitVec.ofNat 48 n }

/-- The word at an address that the channel's prefetch buffer holds (04 R103, R108). -/
def bufferWord (c : Channel) (a : PAddr) : Option IWord :=
  match c.buf with
  | some b =>
    if b.base.sys = a.sys ∧ b.base.addr.toNat ≤ a.addr.toNat then b.words[(a.addr.toNat - b.base.addr.toNat) / 8]? else none
  | none => none

/-- The word at a program address: from the prefetch buffer, or from the program store (04 R104, R105). -/
def codeWord (s : State) (c : Channel) (a : PAddr) : Option IWord :=
  match bufferWord c a with
  | some w => some w
  | none => if !a.sys && decide (a.addr.toNat ≤ 0x3FFF8) then some (readIWord s.prog a.addr.toNat) else none

/-- The buffer of a program-store program advances: it holds the instruction at CH_PC and the three after it (04 R104). -/
def refill (s : State) (c : Channel) : Channel :=
  if c.pc.sys then c
  else { c with buf := some { base := c.pc, words := (List.range 4).filterMap (fun i => codeWord s c (c.pc.plus (8 * i))) } }

/-- The instruction at CH_PC, as far as the engine has it in hand. -/
def handWord (s : State) (c : Channel) : Option IWord :=
  match c.hold with
  | some w => some w
  | none => codeWord s c c.pc

/-- Before a buffer is discarded: the instruction at CH_PC stays known (09 R236, 14 R363). -/
def remember (s : State) (c : Channel) : Channel :=
  match handWord s c with
  | some w => { c with last := some (c.pc, w) }
  | none => c

/-- The instruction at CH_PC, in hand or as last known. -/
def knownWord (s : State) (c : Channel) : Option IWord :=
  match handWord s c, c.last with
  | some w, _ => some w
  | none, some (a, w) => if a = c.pc then some w else none
  | none, none => none

/-- Move CH_PC past `n` bytes; `pastEnd` marks that a system-memory address passed 0xFFFF_FFFF_FFF8 (04 R106). -/
def stepPc (n : Nat) (c : Channel) : Channel :=
  { c with pc := c.pc.plus n, hold := none, pastEnd := c.pc.sys && decide (2 ^ 48 ≤ c.pc.addr.toNat + n) }

/-! ### States of a channel -/

/-- The mover bound to a channel (CH_STAT.MOVER). -/
def moverOf (s : State) (ch : Nat) : Option Nat := (s.movers.find? (fun e => e.2.ch == some ch)).map (·.1)

/-- A channel becomes READY: a candidate from the next ccyc on (04 Table 4.9, 07 R181). -/
def goReady (ch : Nat) (s : State) : State :=
  updChan ch (fun c => { c with st := .ready, waitOn := .none, waitArg := 0, since := s.clk.now }) s

/-- The condition of a WAIT that waits is met: the channel is READY at the next instruction (05 R146). -/
def completeWait (ch : Nat) (s : State) : State :=
  goReady ch (updChan ch (fun c => refill s (stepPc 8 { c with dlArmed := false, dl := 0, newWait := true, met := false })) s)

/-- The context's reset values, with CH_CFG and CH_ENTRY kept (04 R98). -/
def resetContext (c : Channel) : Channel :=
  { cls := c.cls, prio := c.prio, prioSh := c.prioSh, priv := c.priv, mid := c.mid, pin := c.pin,
    autoResume := c.autoResume, homeDom := c.homeDom, assigned := c.assigned, entry := c.entry }

/-- The channel enters IDLE at the end of an abort; a RESET_CH then resets the context (04 R98). -/
def endAbort (ch : Nat) (s : State) : State :=
  updChan ch (fun c => if c.resetting then resetContext c else { c with st := .idle, run := none }) s

/-! ### What a ccyc owes (04 R99, 09 R243) -/

/-- The present ccyc owes the fault log an entry for a fault record of the channel. -/
def oweLog (kind : BitVec 5) (ch : Nat) (r : FaultRec) (s : State) : State :=
  updChan ch (fun c => { c with logs := c.logs ++ [recordEntry kind ch r] }) s

/-- HALTS counts a BROWNOUT halt (14 R370), unless the host has written it in this ccyc (01 R21). -/
def countHalt (e : LogEntry) (s : State) : State :=
  if e.cause = causeCode .brownout ∧ ¬ hostWon 0x158 s then { s with mon := { s.mon with halts := satAdd s.mon.halts 1 } } else s

/-- Write an owed entry; that of a halt sets CH_FAULT (09 R225). -/
def payLog (e : LogEntry) (s : State) : State :=
  let s := logFault e s
  if e.kind = 1 then countHalt e (setCause 0 s) else s

/-- Write what the ccyc owes for one channel; what it may take back of the channel stands. -/
def payLogs (s : State) (ch : Nat) : State :=
  updChan ch (fun c => { c with logs := [], raises := [], took := none, latched := none })
    ((chan s ch).logs.foldl (fun s e => payLog e s) s)

/-- The present ccyc owes the log something for the channel, or may take something of it back. -/
def unsealed (c : Channel) : Bool := !c.logs.isEmpty || !c.raises.isEmpty || c.took.isSome

/-- Nothing of the present ccyc can be taken back any more: what it owes the log is written, a PARK and the quiesces go by the states
that the channels have reached. -/
def sealCcyc (s : State) : State :=
  let s := (chansWhere s (fun _ c => unsealed c)).foldl payLogs s
  pruneQuiesces { endPark s with before := [], ev := { s.ev with direct := [] } }

/-- Note how a channel stands before its first progress, park or halt of the present ccyc. -/
def noteBefore (ch : Nat) (s : State) : State :=
  if (get none s.before ch).isSome then s
  else { s with before := put none s.before ch (some { chan := chan s ch, mover := (moverOf s ch).map (fun m => (m, mover s m)) }) }

/-- Nothing more is kept of how the channel stood. -/
def dropNote (ch : Nat) (s : State) : State := { s with before := put none s.before ch none }

/-- The channel's instruction raises a logical event in the present ccyc (03 R77). -/
def raiseBy (ch : Nat) (e : Event) (s : State) : State :=
  updChan ch (fun c => { c with raises := insertNat e.toNat c.raises })
    { s with ev := { s.ev with raised := insertNat e.toNat s.ev.raised } }

/-- The events that the channel has raised in the present ccyc are not raised, but for those that another source raises too (03 R77). -/
def takeBackRaises (ch : Nat) (s : State) : State :=
  let mine := (chan s ch).raises
  let others := fun e => s.ev.direct.contains e || s.chans.any (fun x => x.1 != ch && x.2.raises.contains e)
  updChan ch (fun c => { c with raises := [] })
    { s with ev := { s.ev with raised := s.ev.raised.filter (fun e => !mine.contains e || others e) } }

/-- The pulse that the channel's WAIT has taken in the present ccyc is pending again. -/
def takeBackPulse (ch : Nat) (s : State) : State :=
  match (chan s ch).took with
  | some (n, k, u) => updChan ch (fun c => { c with took := none }) (setLine n { line s n with cnt := k, use := u } s)
  | none => s

/-- A channel that is parked, aborted or halted loses its claim on a mover that was taken from it (07 R189). -/
def dropClaim (ch : Nat) (s : State) : State :=
  { s with movers := tableOf {} (s.movers.map (fun e => (e.1, if e.2.victim = some ch then { e.2 with victim := none } else e.2))) }

end Sys2Proof.Machine
end

