-- ==== Sys2Proof/Machine/Operands.lean ====
section
/-! DEFINITION. Operand forms: address windows (12 R315, R316), A and L registers, obtaining an instruction word from its
source (04 R102-R106, 05 R136), the checks of a MOVE or PUTI (05 R131) and the shape of its accesses (06 R159-R162, R167). -/

namespace Sys2Proof.Machine

/-! ### Windows and domains -/

/-- The window that holds an address (12 R315). -/
def windowAt (s : State) (a : Nat) : Option Window :=
  s.wins.find? (fun w => decide (w.base.toNat ≤ a) && decide (a ≤ w.limit.toNat))

/-- The address lies in an NV window (12 R316). -/
def inNV (s : State) (a : Nat) : Bool := s.nvwins.any (fun w => decide (w.base.toNat ≤ a) && decide (a ≤ w.limit.toNat))

/-- The domain an access lies in (14 R363). -/
def domAt (s : State) (a : Nat) : Option Nat := (windowAt s a).map (·.dom.toNat)

/-- An access of the channel may not be presented: its window's domain or the channel's home domain is closed (14 R366). -/
def closedTo (s : State) (c : Channel) (a : Nat) : Bool :=
  s.pd.closed.getLsbD c.homeDom.toNat ||
  (match domAt s a with | some n => s.pd.closed.getLsbD n | none => false)

/-! ### Fields of the retained configuration -/

/-- The fields of a request route, an event route and a global input (15 Tables 15.9 to 15.11). -/
def reqMask : Word := 0x8FFF0000
/-- See `reqMask`. -/
def evtMask : Word := 0x7FFF3000
/-- See `reqMask`. -/
def globMask : Word := 0x81FF0000
/-- The fields of a peg (07 Tables 7.7, 7.8). -/
def pegMask : BitVec 16 := 0xC3FF

/-- The bits of rule word `w` that Tables 10.9 to 10.11 name; the others read 0. -/
def ruleMask (w : Nat) : Word :=
  if w < 128 then
    match w % 4 with
    | 0 => 0xFFFFFFFF
    | 1 => 0x0770FFFF
    | 2 => 0xFFFFFFE0
    | _ => 0x0000FFFF
  else if w < 176 then 0xFFFFFFFF
  else if w = 176 then 0x00000773
  else 0

/-! ### A and L registers -/

/-- One of four registers. -/
def reg4 {w : Nat} (r : Regs4 w) (i : Nat) : BitVec w :=
  match i with | 0 => r.r0 | 1 => r.r1 | 2 => r.r2 | _ => r.r3

/-- Replace one of four registers. -/
def setReg4 {w : Nat} (r : Regs4 w) (i : Nat) (v : BitVec w) : Regs4 w :=
  match i with
  | 0 => { r with r0 := v } | 1 => { r with r1 := v } | 2 => { r with r2 := v } | _ => { r with r3 := v }

/-! ### Obtaining an instruction -/

/-- The last program address of a source (04 R93, R106). -/
def lastAddr (sys : Bool) : Nat := if sys then 0xFFFFFFFFFFF8 else 0x3FFF8

/-- The fetch group of an address (04 R105). -/
def groupOf (a : Addr) : Addr := a &&& ~~~ (31 : Addr)

/-- What obtaining the instruction at CH_PC gives. -/
inductive Obtained where
  /-- The word is in hand, with the data word of a PUTI with SZ 1 if its group is in the buffer. -/
  | word (w : IWord)
  /-- The group at this address must be fetched (04 R105, 05 R136). -/
  | fetch (group : Addr)
  /-- The source has ended before it: FETCH with this detail (04 R106). -/
  | past (detail : BitVec 4)
  deriving DecidableEq, Repr

/-- Obtain the instruction at CH_PC. -/
def obtain (s : State) (c : Channel) : Obtained :=
  if c.pastEnd then .past 3
  else if !c.pc.sys && decide (0x3FFF8 < c.pc.addr.toNat) then .past 2
  else match handWord s c with
    | none => .fetch (groupOf c.pc.addr)
    | some w =>
      match decodeYabex w with
      | .ok (.puti _ true _ _) =>
        let d := c.pc.plus 8
        if c.pc.sys && decide (c.pc.addr.toNat + 8 < 2 ^ 48) && (codeWord s c d).isNone then .fetch (groupOf d.addr)
        else .word w
      | _ => .word w

/-- The instruction needs a mover (05 Table 5.1). -/
def needsMover (w : IWord) : Bool := yabexOpcode w == 1 || yabexOpcode w == 2

/-- The instruction at CH_PC is in hand and needs a mover. -/
def atMover (s : State) (c : Channel) : Bool :=
  match obtain s c with
  | .word w => needsMover w
  | _ => false

/-! ### Checks of a MOVE or PUTI -/

/-- An ILLEGAL record (05 Table 5.2). -/
def illegal (detail : BitVec 4) (addr : Addr) : FaultRec := { cause := .illegal, detail := detail, addr := addr }

/-- The window check of one side (05 R131): its first address lies in a window, and its range stays in it. -/
def sideWindow (s : State) (a : Addr) (bytes : Nat) : Except FaultRec Window :=
  match windowAt s a.toNat with
  | some w => if a.toNat + bytes ≤ w.limit.toNat + 1 then .ok w else .error (illegal 5 a)
  | none => .error (illegal 5 a)

/-- The alignment check of one side (05 R131). -/
def sideAlign (a : Addr) (e : Nat) (dir : BitVec 2) (w : Window) : Except FaultRec Unit :=
  if a.toNat % e = 0 then .ok () else .error { cause := .align, addr := a, dir := dir, port := w.port }

/-- The checks of a MOVE after decoding, and its geometry (05 R126, R131). -/
def checkMove (s : State) (a : Regs4 48) (srca dsta : BitVec 2) (es : BitVec 3) (si di : Bool) (sw : BitVec 3) (wt : Bool)
    (cnt : BitVec 20) : Except FaultRec Geometry :=
  let e := esizeBytes es
  let n := cnt.toNat + 1
  let sa := reg4 a srca.toNat
  let da := reg4 a dsta.toNat
  match sideWindow s sa (if si then n * e else e) with
  | .error f => .error f
  | .ok ws => match sideWindow s da (if di then n * e else e) with
    | .error f => .error f
    | .ok wd => match sideAlign sa e dirRead ws with
      | .error f => .error f
      | .ok _ => match sideAlign da e dirWrite wd with
        | .error f => .error f
        | .ok _ => .ok { s := sa.toNat, d := da.toNat, e := e, n := n, sinc := si, dinc := di, swap := sw, wt := wt,
                         sport := ws.port.toNat, dport := wd.port.toNat, sreg := srca, dreg := dsta }

/-- The checks of a PUTI after decoding, and its geometry (05 R137). -/
def checkPuti (s : State) (a : Regs4 48) (dsta : BitVec 2) (sz inc : Bool) (imm : BitVec 64) : Except FaultRec Geometry :=
  let e := if sz then 8 else 4
  let da := reg4 a dsta.toNat
  match sideWindow s da e with
  | .error f => .error f
  | .ok wd => match sideAlign da e dirWrite wd with
    | .error f => .error f
    | .ok _ => .ok { s := 0, d := da.toNat, e := e, n := 1, dinc := inc, dport := wd.port.toNat, dreg := dsta, imm := some imm }

/-! ### Shape of accesses -/

/-- RQ_SIZE of an element size (02 Table 2.2). -/
def sizeCode (e : Nat) : BitVec 3 := if e = 1 then 0 else if e = 2 then 1 else if e = 4 then 2 else if e = 8 then 3 else 5

/-- The source is read with one access per element (06 Table 6.1). -/
def srcSingle (g : Geometry) : Bool := !g.sinc || (g.n == 1 && decide (g.e < 32))
/-- The destination is written with one access per element (06 Table 6.1). -/
def dstSingle (g : Geometry) : Bool := !g.dinc || (g.n == 1 && decide (g.e < 32))
/-- Mapped beat for beat (06 R161). -/
def mapped (g : Geometry) : Bool := g.imm.isNone && !srcSingle g && !dstSingle g && g.s % 32 == g.d % 32

/-- The source address of element `i` (05 R126). -/
def srcAddr (g : Geometry) (i : Nat) : Nat := g.s + (if g.sinc then i * g.e else 0)

/-- The number of destination units: elements, or beats counted from D / 32. -/
def units (g : Geometry) : Nat := if dstSingle g then g.n else (g.d + g.n * g.e - 1) / 32 - g.d / 32 + 1
/-- The elements that the first `u` destination units hold. -/
def elemsUpTo (g : Geometry) (u : Nat) : Nat := if dstSingle g then min g.n u else min g.n (((g.d / 32 + u) * 32 - g.d) / g.e)
/-- The destination unit of element `i`. -/
def unitOf (g : Geometry) (i : Nat) : Nat := if dstSingle g then i else (g.d + i * g.e) / 32 - g.d / 32
/-- The address of a destination unit. -/
def dstAddr (g : Geometry) (u : Nat) : Nat :=
  if dstSingle g then g.d + (if g.dinc then u * g.e else 0) else (g.d / 32 + u) * 32
/-- RQ_SIZE of a destination access. -/
def dstSize (g : Geometry) : BitVec 3 := if dstSingle g then sizeCode g.e else 5

/-- The units of the destination access that begins at unit `u` (06 R160): up to a 256-B boundary of the destination, and,
mapped beat for beat, of the source. -/
def dstLen (g : Geometry) (u : Nat) : Nat :=
  if dstSingle g then 1
  else min (units g - u) (min (8 - (g.d / 32 + u) % 8) (if mapped g then 8 - (g.s / 32 + u) % 8 else 8))

/-- The read for elements `lo` to `hi` - 1 that comes first (06 R167): address, RQ_SIZE, beats and the element it ends at. -/
def nextRead (g : Geometry) (lo hi : Nat) : Nat × BitVec 3 × Nat × Nat :=
  if srcSingle g then (srcAddr g lo, sizeCode g.e, 1, lo + 1)
  else
    let b := srcAddr g lo / 32
    let len := min ((g.s + hi * g.e - 1) / 32 - b + 1)
      (min (8 - b % 8) (if mapped g then 8 - (g.d / 32 + (b - g.s / 32)) % 8 else 8))
    (b * 32, 5, len, min hi (((b + len) * 32 - g.s) / g.e))

/-- A fresh run of a MOVE or PUTI from element `e0` on, of which `rd` elements are read (05 R133). -/
def newRun (g : Geometry) (e0 rd : Nat) (staged : List Staged) : Run :=
  let u := if g.n ≤ e0 then units g else unitOf g e0
  { geo := g, e0 := e0, resv := u, rd := rd, wr := u, staged := staged }

/-- The bytes that a destination unit writes: lane, element and offset in the element as written. -/
def unitBytes (r : Run) (u : Nat) : List (Nat × Nat × Nat) :=
  let g := r.geo
  if dstSingle g then (List.range g.e).map (fun j => (dstAddr g u % 32 + j, u, j))
  else (List.range 32).filterMap (fun k =>
    let x := dstAddr g u + k
    if g.d + r.e0 * g.e ≤ x ∧ x < g.d + g.n * g.e then some (k, (x - g.d) / g.e, (x - g.d) % g.e) else none)

/-- The offset in the element of the byte read for the byte written at offset `j` (05 Table 5.5). -/
def swapOffset (sw : BitVec 3) (j : Nat) : Nat :=
  match sw.toNat with
  | 1 => j ^^^ 1 | 2 => j ^^^ 3 | 3 => j ^^^ 2 | 4 => j ^^^ 7 | _ => j

/-- The address from which a staged beat's read took byte `j` of element `i`. -/
def stagedAddr (g : Geometry) (st : Staged) (i j : Nat) : Nat := st.s + (if g.sinc then i * g.e else 0) + j

/-- The staged source beat with byte `j` (as read) of element `i`. -/
def findStaged (r : Run) (i j : Nat) : Option Staged :=
  r.staged.find? (fun st => decide (st.lo ≤ i) && decide (i < st.hi) && stagedAddr r.geo st i j / 32 == st.beat)

/-- A unit has left the engine unpoisoned, or was answered OK over poison (06 R175). -/
def unitDone (r : Run) (u : Nat) : Bool := decide (u < r.wr) || r.done.contains u

/-- Every destination unit is done. -/
def allDone (r : Run) : Bool := decide (units r.geo ≤ r.wr)

/-- The run with a unit marked done; `wr` counts the unbroken run from the first. -/
def markDone (r : Run) (u : Nat) : Run :=
  let rec climb (d : List Nat) (w : Nat) : Nat → Nat × List Nat
    | 0 => (w, d)
    | n + 1 => if d.contains w then climb (d.filter (· != w)) (w + 1) n else (w, d)
  if unitDone r u then r
  else
    let p := climb (insertNat u r.done) r.wr (r.done.length + 1)
    { r with wr := p.1, done := p.2 }

/-- CH_MOVE_WR of a run (06 R175). -/
def movedElems (r : Run) : Nat := max r.e0 (elemsUpTo r.geo r.wr)

/-- The address of beat `k` of a burst. -/
def beatAddr (addr : Addr) (size : BitVec 3) (k : Nat) : Addr := if size = 5 then addr + BitVec.ofNat 48 (32 * k) else addr

/-- The MOVE still needs a byte of a read beat (08 R213, 06 R162). -/
def beatNeeded (c : Channel) (t : RTag) (beat : Nat) : Bool :=
  match c.run with
  | none => false
  | some r => !t.stale && (List.range (t.hi - t.lo)).any (fun k =>
      let i := t.lo + k
      (t.s + (if r.geo.sinc then i * r.geo.e else 0)) / 32 == beat && !unitDone r (unitOf r.geo i))

/-- No beat to come of a read tag carries a byte that the MOVE needs (08 R213). -/
def noLonger (c : Channel) (t : RTag) : Bool :=
  c.run.isSome && !t.fetch && !t.failed &&
  (List.range (t.len - t.got)).all (fun k => !beatNeeded c t ((beatAddr t.addr t.size (t.got + k)).toNat / 32))

/-! ### What a channel touches (14 R363) -/

/-- The first addresses of the sides of the MOVE or PUTI that a channel has begun. -/
def sidesOf (s : State) (c : Channel) : List Nat :=
  if !c.inMove then []
  else match knownWord s c with
    | some w => match decodeYabex w with
      | .ok (.move a b _ _ _ _ _ _) => [(reg4 c.a a.toNat).toNat, (reg4 c.a b.toNat).toNat]
      | .ok (.puti b _ _ _) => [(reg4 c.a b.toNat).toNat]
      | _ => []
    | none => match c.run with
      | some r => if r.geo.imm.isSome then [r.geo.d] else [r.geo.s, r.geo.d]
      | none => []

/-- A tag of an access lying in domain `n` is outstanding for the channel (none: for any channel), orphaned ones excepted. -/
def tagsIn (s : State) (ch : Option Nat) (n : Nat) : Bool :=
  portRange.any (fun p =>
    (rtagList (port s p)).any (fun t => (ch.isNone || ch == some t.2.ch) && !t.2.orphan && domAt s t.2.addr.toNat == some n) ||
    (wtagList (port s p)).any (fun t => (ch.isNone || ch == some t.2.ch) && !t.2.orphan && domAt s t.2.addr.toNat == some n))

/-- The group that a channel WAITING for a fetch needs. -/
def fetchGroup (s : State) (c : Channel) : Option Addr :=
  if c.st = .waiting ∧ c.waitOn = .fetch then match obtain s c with | .fetch g => some g | _ => none else none

/-- Channel `ch` touches domain `n`. -/
def touches (s : State) (ch n : Nat) : Bool :=
  let c := chan s ch
  c.homeDom.toNat == n ||
  (sidesOf s c).any (fun a => domAt s a == some n) ||
  tagsIn s (some ch) n ||
  (match fetchGroup s c with | some g => domAt s g.toNat == some n | none => false)

end Sys2Proof.Machine
end

