-- ==== Sys2Proof/Machine/Halts.lean ====
section
/-! DEFINITION. Detecting a fault and entering HALTED (09 R224-R233), the return of a mover (07 R189), parking (09 R241),
aborting (09 R238), returning a context to reset (04 R98), starting a channel (04 R97) and clearing its lines (03 R74). A
halt is this block's exception entry. -/

namespace Sys2Proof.Machine

/-! ### What a stopped channel keeps -/

/-- What remains of a MOVE after a halt or an abort: the slot of a burst whose beats are still owed (06 R170, 09 R229). -/
def owedRun (s : State) (ch : Nat) (r : Run) : Option Run :=
  match (port s r.geo.dport).burst with
  | some b => if b.ch = ch then some { r with slots := r.slots.filter (fun sl => sl.tag == b.tag), resend := [] } else none
  | none => none

/-- The read tags whose bytes the MOVE no longer needs at a halt are known as such afterwards (08 R213, 09 R231). -/
def markUnneeded (ch : Nat) (s : State) : State :=
  let c := chan s ch
  mapPorts (mapRtags (fun t => if t.ch = ch ∧ noLonger c t then { t with stale := true } else t)) s

/-! ### Entering HALTED (09 R224-R229) -/

/-- Before a halt: requests withdrawn, what is no longer needed marked as such, the claim on a taken mover dropped. -/
def haltPrep (ch : Nat) (s : State) : State := dropClaim ch (staleFetch ch (markUnneeded ch (withdraw ch s)))

/-- A channel as it enters HALTED with a fault record (09 R224, R225); the ccyc owes the log its CH_HALT entry. -/
def haltedChan (s : State) (ch : Nat) (r : FaultRec) (c : Channel) : Channel :=
  { remember s c with
    st := .halted, parkSrc := false, waitOn := .none, waitArg := 0, haltPend := false, parkPend := false, held := none
    raised := false, faultAddr := r.addr, faultPc := c.pc
    faultInfo := { valid := true, port := r.port, detail := r.detail, dir := r.dir, cause := r.cause }
    buf := none, fetchIn := none, hold := none, pastEnd := false, pendCmd := .none, fetched := false, met := false, startNext := false
    haltAt := s.clk.now, run := c.run.bind (owedRun s ch), logs := c.logs ++ [recordEntry 1 ch r]
    latched := if c.faultAt = s.clk.now then c.held.filter (· == r) else none }

/-- Enter HALTED with a fault record; the mover is released by `enterHalt`. -/
def haltCore (ch : Nat) (r : FaultRec) (s : State) : State :=
  let s := haltPrep ch (noteBefore ch s)
  updChan ch (haltedChan s ch r) s

/-- The halt of the held fault waits for the final beats of the failing read tags: BUS, GATE and ECC (09 Table 9.5). -/
def waitsForTags (c : Channel) : Bool :=
  match c.held with
  | some r => r.cause == .bus || r.cause == .gate || r.cause == .ecc
  | none => false

/-- Every failing read tag that the halt waits for has given its final beat (09 Table 9.5). -/
def tagsSettled (s : State) (ch : Nat) : Bool := !(waitsForTags (chan s ch) && failingTag s ch)

/-- A held fault can become the halt now (09 Table 9.5). -/
def haltReady (s : State) (ch : Nat) : Bool :=
  decide ((chan s ch).haltAt ≤ s.clk.now) && !owesBeats s ch && tagsSettled s ch

/-- A fault held with a READY channel can become its halt now: owed beats are not waited for (07 R188). -/
def raiseReady (s : State) (ch : Nat) : Bool := decide ((chan s ch).haltAt ≤ s.clk.now) && tagsSettled s ch

/-- Raise the fault held with a READY channel (07 R188): it halts now, or stays READY and is no candidate until it can. The halt for a
fault detected in the present ccyc comes as the ccyc ends, when every fault of it is known (09 R228). -/
def raiseHeld (ch : Nat) (s : State) : State :=
  match (chan s ch).held with
  | none => s
  | some r =>
    if raiseReady s ch && (chan s ch).faultAt != s.clk.now then haltCore ch r s
    else updChan ch (fun c => { c with raised := true }) s

/-- A port's grant that mover `m` holds without a request (05 R139) ends: the mover leaves its channel. -/
def dropHolder (m : Nat) (s : State) : State :=
  mapPorts (fun p => match p.holder with
    | some (.mover h) =>
      let has := fun (q : Request) => q.who == .mover h && !q.gone
      if h.toNat = m ∧ ¬ p.reqs.any has ∧ ¬ p.grant.any has ∧ (p.presents ≠ p.holder ∨ p.decidedAt = some (cycleStart s p)) then
        { p with holder := none }
      else p
    | _ => p) s

/-- Release mover `m`: back to the victim it was taken from, if that is still READY in its MOVE without a mover (07 R189);
a frozen scheduler binds nothing (17 R401). -/
def releaseMover (m : Nat) (s : State) : State :=
  let s := dropHolder m s
  match (mover s m).victim with
  | some v =>
    let c := chan s v
    if c.st = .ready ∧ c.inMove ∧ moverOf s v = none ∧ ¬ s.mon.frzSched then
      if stopping c then raiseHeld v (setMover m {} s)
      else updChan v (fun c => { c with st := .running, nextAt := s.clk.now })
        (setMover m { ch := some v, since := s.clk.now } (dropClaim v s))
    else setMover m {} s
  | none => setMover m {} s

/-- Release the channel's mover, if it has one. -/
def releaseOf (ch : Nat) (s : State) : State :=
  match moverOf s ch with
  | some m => releaseMover m s
  | none => s

/-- Enter HALTED, releasing the mover (09 R226). -/
def enterHalt (ch : Nat) (r : FaultRec) (s : State) : State := releaseOf ch (haltCore ch r s)

/-- The rank of faults detected in one ccyc (09 R228): DEADLINE, error responses by port, direction and tag, then BROWNOUT
and QUIESCE. The faults of an executing instruction halt at once and are not held. -/
def faultRank (r : FaultRec) : Nat :=
  if r.cause = .deadline then 0
  else if r.resp ≠ 0 ∨ r.cause = .ecc then 1 + (r.port.toNat * 2 + (if r.dir = dirWrite then 1 else 0)) * 64 + r.tag.toNat
  else if r.cause = .brownout then 2000 else 2001

/-- The fault was carried by a response or a received beat. -/
def fromResponse (r : FaultRec) : Bool := decide (faultRank r ≠ 0) && decide (faultRank r < 2000)

/-- A halt in the ccyc of detection (09 Table 9.5, first row); an error response held before is secondary (09 R228, R231). -/
def haltNow (ch : Nat) (r : FaultRec) (s : State) : State :=
  let s := match (chan s ch).held with
    | some h => if fromResponse h then oweLog 2 ch h s else s
    | none => s
  enterHalt ch r s

/-- A further response error reaches a channel that a fault has halted (09 R231): a secondary error; but of two faults of which one has
halted the channel in the present ccyc and both were detected in it, the first by rank is latched (09 R228). -/
def secondError (ch : Nat) (r : FaultRec) (s : State) : State :=
  match (chan s ch).latched with
  | some h =>
    if faultRank r < faultRank h then
      let s := updChan ch (fun c => { c with
        faultAddr := r.addr, latched := some r
        faultInfo := { c.faultInfo with port := r.port, detail := r.detail, dir := r.dir, cause := r.cause }
        logs := c.logs.filter (fun e => e.kind != 1) ++ [recordEntry 1 ch r] }) s
      if fromResponse h then oweLog 2 ch h s else s
    else oweLog 2 ch r s
  | none => oweLog 2 ch r s

/-- HALT_PEND shows a held fault, but one that halts the channel in the ccyc of its detection (09 R227). -/
def showPend (ch : Nat) (s : State) : State :=
  let c := chan s ch
  let due := (c.st == .running || c.st == .waiting) && haltReady s ch
  setChan ch { c with haltPend := !(due && c.faultAt == s.clk.now) } s

/-- A fault joins what the channel holds: a further error response is secondary, and of two faults detected in one ccyc the
first by rank is held (09 R228, R231, R232). -/
def holdFault (ch : Nat) (r : FaultRec) (haltAt : Nat) (s : State) : State :=
  let c := chan s ch
  match c.held with
  | some h =>
    if c.faultAt = s.clk.now ∧ faultRank r < faultRank h then
      let s := setChan ch { c with held := some r, haltAt := haltAt } s
      if fromResponse h then oweLog 2 ch h s else s
    else if fromResponse r then oweLog 2 ch r s
    else s
  | none => withdraw ch (setChan ch { c with held := some r, faultAt := s.clk.now, haltAt := haltAt } s)

/-- A fault of a channel is detected and its halt held (09 R226, R227). `haltAt` is the first ccyc in which the halt may
come. -/
def detect (ch : Nat) (r : FaultRec) (haltAt : Nat) (s : State) : State := showPend ch (holdFault ch r haltAt s)

/-- The held fault of a channel becomes its halt, if Table 9.5 lets it: a READY channel's only once it is raised (07 R188). -/
def enterHeld (ch : Nat) (s : State) : State :=
  let c := chan s ch
  match c.held with
  | none => s
  | some r =>
    if (c.st = .running ∨ c.st = .waiting ∨ c.st = .idle) ∧ haltReady s ch ∨ (c.st = .ready ∧ c.raised ∧ raiseReady s ch) then
      enterHalt ch r s
    else s

/-- The halts of the ccyc of detection (09 Table 9.5): those that no later fault of the ccyc has preceded or held back, and those of READY
channels that the scheduler has reached in it (07 R188). -/
def haltsDue (s : State) : State :=
  (chansWhere s (fun _ c => stopping c && ((!c.haltPend && (c.st == .running || c.st == .waiting)) ||
    (c.st == .ready && c.raised && c.faultAt == s.clk.now)))).foldl (fun s ch => enterHeld ch s) s

/-! ### Parking (09 R241, R242) -/

/-- Enter PARKED: the buffer is discarded, the mover is released, the slots stay held (06 R169).
What is at CH_PC will be checked again, and a PUTI executed again (05 R133, R138); a held fault waits for the resumed channel to be
reached (07 R188, 09 R232). -/
def enterPark (ch : Nat) (src : Bool) (s : State) : State :=
  let s := dropClaim ch (staleFetch ch (withdraw ch (noteBefore ch s)))
  let s := updChan ch (fun c => { remember s c with
    st := .parked, parkSrc := src, parkPend := false, waitOn := .none, waitArg := 0, buf := none, fetchIn := none, hold := none
    fetched := false, met := false, recheck := true, raised := false }) s
  releaseOf ch s

/-- The park of the channel comes now: it was asked for in an earlier ccyc, no fault is detected, and no beat is owed (09 R241). -/
def parkDue (s : State) (ch : Nat) (c : Channel) : Bool :=
  c.parkPend && !stopping c && decide (c.parkAt < s.clk.now) && !owesBeats s ch

/-! ### The order of causes in one ccyc (04 R99) -/

/-- A channel as it stood earlier in the ccyc, with what the ccyc has done to its settings. -/
def restored (b c : Channel) : Channel :=
  { b with prio := c.prio, prioSh := c.prioSh, pin := c.pin, autoResume := c.autoResume, entry := c.entry, enAt := c.enAt,
           logs := c.logs }

/-- What the ccyc has logged for the channel, without the entry of a halt that does not take place. -/
def unhaltedLogs (c : Channel) : List LogEntry := c.logs.filter (fun e => e.kind != 1)

/-- The scheduler selected the channel in the present ccyc, whatever it has executed since. -/
def selectedNow (s : State) (ch : Nat) : Bool :=
  (earlier s ch).any (fun b => b.st == .ready && b.held.isNone) &&
  (match (chan s ch).st with
   | .running => true
   | .waiting => true
   | .idle => true
   | .halted => true
   | _ => false)

/-- The re-sends that responses of the present ccyc have brought a MOVE and its mover has reserved slots for in it (06 R176). -/
def newResends (s : State) (old new : Run) : List (Nat × Nat × Nat) :=
  (new.slots.filter (fun sl => sl.whole && sl.first == s.clk.now + 1 && old.slots.all (fun o => o.tag != sl.tag))).map
    (fun sl => (sl.unit, sl.len, sl.first)) ++ new.resend.filter (fun x => !old.resend.contains x)

/-- The MOVE of a channel whose selection is undone: as it stood, with what the responses of the ccyc have brought it. -/
def keptRun (s : State) (b c : Channel) : Option Run :=
  match b.run, c.run with
  | some r, some q =>
    if c.st = .halted then some r
    else if q.geo = r.geo then some { q with resv := r.resv, rd := r.rd, slots := r.slots, resend := r.resend ++ newResends s r q }
    else some { r with staged := q.staged }
  | r, _ => r

/-- The selection of a channel in the present ccyc, and what the channel has executed since, does not take place: its mover goes back, the
events that it raised are not raised, the pulse that its WAIT took is pending again. -/
def unselect (ch : Nat) (s : State) : State :=
  match earlier s ch with
  | none => s
  | some b =>
    let s := takeBackPulse ch (takeBackRaises ch (withdraw ch s))
    let c := chan s ch
    let s := updChan ch (fun c => { restored b c with
      run := keptRun s b c, moveWr := if b.inMove && c.st != .halted then c.moveWr else b.moveWr, logs := unhaltedLogs c }) s
    dropNote ch (if c.st = .running then releaseOf ch s else s)

/-- The progress of the channel in the present ccyc gives way to a cause that comes before it: a condition met or a fetch that arrived,
and a selection with what came of it. -/
def yieldProgress (ch : Nat) (s : State) : State :=
  match earlier s ch with
  | none => s
  | some b =>
    if b.st = .waiting ∧ (chan s ch).st = .ready then dropNote ch (updChan ch (restored b) s)
    else if selectedNow s ch then unselect ch s
    else s

/-- A fault that was held with a READY channel and has been raised in the present ccyc stays held with it: a park comes first, and a fault
is no reason against it (09 R242, 13 R338). -/
def yieldRaise (ch : Nat) (s : State) : State :=
  match earlier s ch with
  | none => s
  | some b =>
    if b.st = .ready ∧ b.held.isSome ∧ (chan s ch).st = .halted ∧ (chan s ch).haltAt = s.clk.now then
      dropNote ch (updChan ch (fun c => { restored b c with logs := unhaltedLogs c }) s)
    else s

/-- The park of a channel that was RUNNING or WAITING when the present ccyc began gives way to a fault of it, which had come first; it
has its mover again. -/
def yieldPark (ch : Nat) (s : State) : State :=
  match get none s.before ch with
  | some b =>
    if (chan s ch).st = .parked ∧ (b.chan.st = .waiting ∨ b.chan.st = .running) then
      let s := updChan ch (restored b.chan) s
      match b.mover with
      | some (m, v) => if (mover s m).ch = none then setMover m v s else s
      | none => s
    else s
  | none => s

/-- The channel was READY when it was parked in the present ccyc: a fault of this ccyc is held with it (13 R338). -/
def parkedReady (s : State) (ch : Nat) : Bool :=
  (chan s ch).st == .parked && (earlier s ch).any (fun b => b.st == .ready)

/-- A STOP that the channel executed in the present ccyc gives way to a cause that comes before it in the order of 04 R99: the
channel is RUNNING at its STOP again. -/
def unstop (ch : Nat) (s : State) : State :=
  updChan ch (fun c =>
    if c.st = .idle ∧ c.stopAt = some s.clk.now then
      refill s { c with st := .running, en := true, stopAt := none, startNext := false }
    else c) s

/-! ### Abort (09 R238, R239) -/

/-- A channel without the halt, if there was one, that the present ccyc has brought it (04 R99). -/
def unhalted (s : State) (ch : Nat) (c : Channel) : Channel :=
  match earlier s ch with
  | some b => { c with logs := [], faultAddr := b.faultAddr, faultInfo := b.faultInfo, faultPc := b.faultPc }
  | none => { c with logs := [] }

/-- The stale event of a deadline whose halt the present ccyc has brought the channel is not raised (05 R149). -/
def unstale (ch : Nat) (s : State) : State :=
  let c := chan s ch
  if c.st = .halted ∧ c.haltAt = s.clk.now ∧ c.faultInfo.cause = .deadline then takeBackRaises ch s else s

/-- A channel as it enters ABORTING (09 R238, R239, Table 9.8). -/
def abortedChan (s : State) (ch : Nat) (c : Channel) : Channel :=
  { unhalted s ch c with
    en := false, st := .aborting, waitOn := .none, waitArg := 0, haltPend := false, parkPend := false, held := none,
    raised := false, dlArmed := false, inMove := false, parkSrc := false, pendCmd := .none, recheck := false,
    newWait := true, buf := none, fetchIn := none, hold := none, pastEnd := false, fetched := false, met := false, startNext := false,
    tap := none, latched := none, faultInfo := { (unhalted s ch c).faultInfo with valid := false },
    moveRd := Config.freeElems s.free, moveWr := Config.freeElems (s.free + 1),
    run := c.run.bind (owedRun s ch) }

/-- Abort a channel (04 R99: before any other cause but RESET_CH): requests withdrawn, held fault dropped, tags absorbed (02 R63), mover
released. With no tag outstanding it is IDLE at once. The progress fields are free values (09 R239). -/
def abort (ch : Nat) (s : State) : State :=
  let s := dropClaim ch (endTags ch (withdraw ch (unstale ch s)))
  let s := takeFree (takeFree (updChan ch (abortedChan s ch) s))
  let s := releaseOf ch (dropNote ch s)
  if noTags s ch then endAbort ch s else s

/-! ### Starting a channel -/

/-- Start an assigned IDLE channel at CH_ENTRY (04 Table 4.9). DESIGN CHOICE: CH_DL, which the table does not list, is cleared, and EN
reads 1 for a START channel too, which no host write has enabled (04 R96; log entry 46). -/
def startChannel (ch : Nat) (s : State) : State :=
  goReady ch (updChan ch (fun c => { c with
    en := true, pc := c.entry, watchVal := 0, watchCnt := 0, moveRd := 0, moveWr := 0, inMove := false, run := none,
    recheck := false, newWait := true, dlArmed := false, dl := 0, buf := none, hold := none, pastEnd := false,
    pendCmd := .none, stopAt := none, startNext := false, fetchIn := none, fetched := false, met := false, tap := none, last := none }) s)

/-- A SELFTEST of the tests 1 to 3 is running (13 R343). -/
def selfTesting (s : State) : Bool :=
  match s.cmd.job with
  | .selftest t _ _ => t &&& 14 != 0
  | _ => false

/-- A channel may be started: it is assigned, and neither a soft reset nor a self-test that forbids it is in progress (04 R97,
13 R343). -/
def mayStart (s : State) (ch : Nat) : Bool := (chan s ch).assigned && s.srst.start.isNone && !selfTesting s

/-- A host write of 1 to CH_CTL.EN (04 R97): it starts an IDLE channel; with a STOP of the same ccyc, before it or after it, the
channel starts again in the next (04 R99). -/
def enableChannel (ch : Nat) (s : State) : State :=
  let c := chan s ch
  if mayStart s ch then
    if c.st = .idle then
      if c.stopAt = some s.clk.now then setChan ch { c with startNext := true } s else startChannel ch s
    else if c.st = .running ∨ c.st = .ready then setChan ch { c with enAt := some s.clk.now } s
    else s
  else s

/-- The channels that a STOP and a start of the ccyc before leave to start now (04 R99). -/
def startAgain (s : State) : State :=
  (chansWhere s (fun _ c => c.startNext)).foldl (fun s ch =>
    if (chan s ch).st = .idle ∧ mayStart s ch then startChannel ch s
    else updChan ch (fun c => { c with startNext := false }) s) s

/-! ### Request lines -/

/-- OWNER_EN and OWNER of a line's route in force (15 Table 15.9). -/
def lineOwner (s : State) (n : Nat) : Option Nat :=
  let w := get (0 : Word) s.routes.req n
  if bit w 31 then some (fld w 16 10 : BitVec 10).toNat else none

/-- The lines a channel owns. -/
def ownedLines (s : State) (ch : Nat) : List Nat :=
  keysWhere s.routes.req (fun _ w => bit w 31 && (fld w 16 10 : BitVec 10).toNat == ch)

/-- Clear the counter and overflow flag of a line (03 R74). -/
def clearLine (n : Nat) (s : State) : State := setLine n { line s n with cnt := 0, ovf := false, use := .none } s

/-- Clear the counters of a channel's lines (03 Table 3.2, RESET_CH). -/
def clearLinesOf (ch : Nat) (s : State) : State := (ownedLines s ch).foldl (fun s n => clearLine n s) s

/-- Clear every counter and overflow flag, keeping the detectors (03 Table 3.2). -/
def clearAllLines (s : State) : State :=
  { s with lines := tableOf {} (s.lines.map (fun e => (e.1, { e.2 with cnt := 0, ovf := false, use := .none }))) }

/-- RESET_CH of one channel (04 R98): its lines are cleared; a channel not IDLE is aborted; the context returns to reset
values once no tag is outstanding. -/
def resetChannel (ch : Nat) (s : State) : State :=
  let s := clearLinesOf ch (updChan ch (fun c => { c with resetting := true }) (unstop ch (yieldProgress ch s)))
  match (chan s ch).st with
  | .aborting => updChan ch (fun c => { c with pendCmd := .none }) s
  | .idle =>
    if noTags s ch then endAbort ch s
    else endTags ch (updChan ch (fun c => { c with
      st := .aborting, en := false, haltPend := false, held := none, raised := false, startNext := false }) s)
  | _ => abort ch s

end Sys2Proof.Machine
end

