-- ==== Sys2Proof/Machine/Yabex.lean ====
section
/-! DEFINITION. The Yabex instructions (05). A row of this family is the execution, by a RUNNING channel, of the instruction
at CH_PC when it is the one that the row names; otherwise nothing happens (log entry 2). -/

namespace Sys2Proof.Machine

/-- The fetch port (12 R314). -/
def fetchPort (s : State) : Option Nat := (s.ports.find? (fun e => e.2.used && e.2.fetch)).map (·.1)

/-- A FETCH record for an address that could not be obtained (09 Table 9.4). -/
def fetchFault (s : State) (sys : Bool) (addr : Addr) (detail : BitVec 4) : FaultRec :=
  { cause := .fetch, addr := addr, dir := dirFetch, detail := detail,
    port := if sys then BitVec.ofNat 3 ((fetchPort s).getD 0) else 0 }

/-- A RUNNING channel comes to the instruction at CH_PC: a source that has ended halts it with FETCH (04 R106), a group not
in its buffer makes it wait (04 R105). The buffer of a program-store program is refilled (04 R103, R104). -/
def comeTo (ch : Nat) (s : State) : State :=
  let c := refill s (chan s ch)
  let s := setChan ch c s
  match obtain s c with
  | .word _ => s
  | .fetch _ => setChan ch { c with st := .waiting, waitOn := .fetch, waitArg := 0, fetched := false, hold := handWord s c
                                    waitAt := some s.clk.now } s
  | .past d => haltNow ch (fetchFault s c.pc.sys c.pc.addr d) s

/-- The channel has executed an instruction and goes on to the next `k` ccyc later (05 R157), unless it was to stop before the present ccyc;
the next WAIT is a new arrival (05 R148). DESIGN CHOICE: where the next instruction is not in its buffer, the channel enters WAITING 0b110
in the ccyc of the instruction before it, and where its source has ended it halts with FETCH in that ccyc; no rule names the ccyc of either
(log entry 46). -/
def goOn (ch k : Nat) (s : State) : State :=
  let s := updChan ch (fun c => refill s { c with nextAt := s.clk.now + k, since := s.clk.now + k, newWait := true }) s
  let c := chan s ch
  if c.st = .running ∧ (¬ stopping c ∨ c.faultAt = s.clk.now) ∧ (¬ c.parkPend ∨ c.parkAt = s.clk.now) then comeTo ch s else s

/-- Move past an instruction of `n` bytes and go on in the next ccyc. -/
def past (ch n : Nat) (s : State) : State := goOn ch 1 (updChan ch (stepPc n) s)

/-- Continue at another address of the same source. -/
def branchTo (ch : Nat) (a : Addr) (s : State) : State :=
  goOn ch 1 (updChan ch (fun c => { c with pc := { c.pc with addr := a }, hold := none, pastEnd := false }) s)

/-- The channel executes an instruction in the present ccyc: RUNNING, its turn, and not stopped in an earlier ccyc
(07 R183; 09 R226, R241). -/
def mayExecute (s : State) (ch : Nat) : Bool :=
  let c := chan s ch
  coreOn s && c.st == .running && decide (c.nextAt ≤ s.clk.now) &&
  (!stopping c || c.faultAt == s.clk.now) && (!c.parkPend || c.parkAt == s.clk.now)

/-- The channel comes to execute a MOVE or PUTI with a mover (05 R126). -/
def mayMove (s : State) (ch : Nat) : Bool := mayExecute s ch && (moverOf s ch).isSome

/-- A MOVE or PUTI whose checks have passed begins: not in the ccyc of another fault or of a park (09 R226, R228, R241). -/
def mayBegin (c : Channel) : Bool := !stopping c && !c.parkPend

/-- The word at CH_PC, if it has one of these opcodes. -/
def wordAt (s : State) (ch : Nat) (op : Nat) : Option IWord :=
  match obtain s (chan s ch) with
  | .word w => if (yabexOpcode w).toNat = op then some w else none
  | _ => none

/-- Execute the instruction at CH_PC if it has opcode `op` and condition `ok` holds: an ILLEGAL word halts the channel with
no effect (05 R118, R119), any other has the effect `f`. -/
def execute (ok : Bool) (ch : Chan) (op : Nat) (f : Yabex → State → State) (s : State) : State :=
  if ok then
    match wordAt s ch.toNat op with
    | none => s
    | some w => match decodeYabex w with
      | .illegal d => haltNow ch.toNat (illegal d 0) s
      | .ok i => f i s
  else s

/-! ### MOVE and PUTI -/

/-- Begin or continue a MOVE whose checks have passed (05 R126, R133). -/
def startMove (ch : Nat) (g : Geometry) (s : State) : State :=
  updChan ch (fun c =>
    if !mayBegin c then c
    else if !c.inMove then { c with tap := none, inMove := true, recheck := false, moveRd := 0, moveWr := 0, run := some (newRun g 0 0 []) }
    else match c.run with
      | some r => if r.geo = g then { c with recheck := false }
        else { c with recheck := false, run := some (newRun g c.moveWr.toNat c.moveRd.toNat r.staged) }
      | none => { c with recheck := false, moveRd := c.moveWr, run := some (newRun g c.moveWr.toNat c.moveWr.toNat []) }) s

/-- MOVE (05 R126, R131, R133). A MOVE under way that needs no new check goes on by its slots, reads and writes. -/
def moveEffect (ch : Nat) (i : Yabex) (s : State) : State :=
  match i with
  | .move a b es si di sw wt n =>
    let c := chan s ch
    if c.inMove && c.run.isSome && !c.recheck then s
    else match checkMove s c.a a b es si di sw wt n with
      | .error f => haltNow ch f s
      | .ok g => startMove ch g s
  | _ => s

/-- Execute MOVE. -/
def execMove (ch : Chan) (s : State) : Host.Outcome State Fault Refusal :=
  .next (execute (mayMove s ch.toNat) ch 1 (moveEffect ch.toNat) s)

/-- The data word of a PUTI with SZ 1: the word after it, or the detail of FETCH where the source has ended (05 R136). -/
def putiData (s : State) (c : Channel) : Except (BitVec 4) (BitVec 64) :=
  let d := c.pc.plus 8
  if c.pc.sys then
    if 2 ^ 48 ≤ c.pc.addr.toNat + 8 then .error 3
    else .ok ((codeWord s c d).getD 0)
  else match codeWord s c d with
    | some w => .ok w
    | none => .error 2

/-- A PUTI executed again keeps the slot it holds, if its write still goes to the slot's port (06 R169, 07 R187). -/
def putiRun (g : Geometry) (old : Option Run) : Run :=
  match old with
  | some r =>
    if r.geo.imm.isSome ∧ r.geo.dport = g.dport then { newRun g 0 0 [] with resv := r.resv, slots := r.slots } else newRun g 0 0 []
  | none => newRun g 0 0 []

/-- PUTI (05 R136, R137, R138): its one write is then launched as a destination access of the mover. -/
def putiEffect (ch : Nat) (i : Yabex) (s : State) : State :=
  match i with
  | .puti b sz inc imm =>
    let c := chan s ch
    if c.inMove && c.run.isSome && !c.recheck then s
    else match checkPuti s c.a b sz inc (imm.setWidth 64) with
      | .error f => haltNow ch f s
      | .ok g =>
        match (if sz then putiData s c else .ok (imm.setWidth 64)) with
        | .error d => haltNow ch (fetchFault s c.pc.sys (c.pc.plus 8).addr d) s
        | .ok v => updChan ch (fun c =>
            if !mayBegin c then c
            else { c with inMove := true, recheck := false, run := some (putiRun { g with imm := some v } c.run) }) s
  | _ => s

/-- Execute PUTI. -/
def execPuti (ch : Chan) (s : State) : Host.Outcome State Fault Refusal :=
  .next (execute (mayMove s ch.toNat) ch 2 (putiEffect ch.toNat) s)

/-! ### SETA, ADDA, SETL (05 R140) -/

/-- SETA. -/
def setaEffect (ch : Nat) (i : Yabex) (s : State) : State :=
  match i with
  | .seta r v => past ch 8 (updChan ch (fun c => { c with a := setReg4 c.a r.toNat v }) s)
  | _ => s

/-- Execute SETA. -/
def execSeta (ch : Chan) (s : State) : Host.Outcome State Fault Refusal :=
  .next (execute (mayExecute s ch.toNat) ch 3 (setaEffect ch.toNat) s)

/-- ADDA: modulo 2^48. -/
def addaEffect (ch : Nat) (i : Yabex) (s : State) : State :=
  match i with
  | .adda r v => past ch 8 (updChan ch (fun c => { c with a := setReg4 c.a r.toNat (reg4 c.a r.toNat + v) }) s)
  | _ => s

/-- Execute ADDA. -/
def execAdda (ch : Chan) (s : State) : Host.Outcome State Fault Refusal :=
  .next (execute (mayExecute s ch.toNat) ch 4 (addaEffect ch.toNat) s)

/-- SETL. -/
def setlEffect (ch : Nat) (i : Yabex) (s : State) : State :=
  match i with
  | .setl r v => past ch 8 (updChan ch (fun c => { c with l := setReg4 c.l r.toNat v }) s)
  | _ => s

/-- Execute SETL. -/
def execSetl (ch : Chan) (s : State) : Host.Outcome State Fault Refusal :=
  .next (execute (mayExecute s ch.toNat) ch 5 (setlEffect ch.toNat) s)

/-! ### LOOP, JUMP, LINK -/

/-- The branch target over the integers (05 R142). -/
def branchTarget (pc : PAddr) (off : BitVec 32) : Int := (pc.addr.toNat : Int) + 8 * off.toInt

/-- A target that is a program address of the source, as its 48-bit value (05 R142). -/
def targetOk (sys : Bool) (t : Int) : Bool := decide (0 ≤ t) && decide (t ≤ (lastAddr sys : Int))

/-- LOOP (05 R142, R143). -/
def loopEffect (ch : Nat) (i : Yabex) (s : State) : State :=
  match i with
  | .loop r off =>
    let c := chan s ch
    let t := branchTarget c.pc off
    if !targetOk c.pc.sys t then haltNow ch (illegal 6 (BitVec.ofInt 48 t)) s
    else
      let v := reg4 c.l r.toNat
      if v = 0 then past ch 8 s
      else
        let s := updChan ch (fun c => { c with l := setReg4 c.l r.toNat (v - 1) }) s
        if v = 1 then past ch 8 s else branchTo ch (BitVec.ofInt 48 t) s
  | _ => s

/-- Execute LOOP. -/
def execLoop (ch : Chan) (s : State) : Host.Outcome State Fault Refusal :=
  .next (execute (mayExecute s ch.toNat) ch 6 (loopEffect ch.toNat) s)

/-- JUMP (05 R142). -/
def jumpEffect (ch : Nat) (i : Yabex) (s : State) : State :=
  match i with
  | .jump off =>
    let c := chan s ch
    let t := branchTarget c.pc off
    if targetOk c.pc.sys t then branchTo ch (BitVec.ofInt 48 t) s
    else haltNow ch (illegal 6 (BitVec.ofInt 48 t)) s
  | _ => s

/-- Execute JUMP. -/
def execJump (ch : Chan) (s : State) : Host.Outcome State Fault Refusal :=
  .next (execute (mayExecute s ch.toNat) ch 7 (jumpEffect ch.toNat) s)

/-- Whether a channel may run from system memory (04 R107). -/
def sysAllowed (s : State) (c : Channel) : Bool := c.cls != .urgent && (fetchPort s).isSome

/-- LINK (04 R110, 05 R144). -/
def linkEffect (ch : Nat) (i : Yabex) (s : State) : State :=
  match i with
  | .link sys t =>
    let c := chan s ch
    if !sys && decide (0x3FFF8 < t.toNat) then haltNow ch (illegal 6 t) s
    else if sys && !sysAllowed s c then haltNow ch (illegal 7 t) s
    else goOn ch 1 (setChan ch { c with pc := { sys := sys, addr := t }, buf := none, hold := none, pastEnd := false } s)
  | _ => s

/-- Execute LINK. -/
def execLink (ch : Chan) (s : State) : Host.Outcome State Fault Refusal :=
  .next (execute (mayExecute s ch.toNat) ch 8 (linkEffect ch.toNat) s)

/-! ### WAIT (05 R145-R149) -/

/-- The instant meant by the 48 bits of an A register at ridge time `n` (05 R147), as an offset from `n`. -/
def instantOffset (n : BitVec 64) (a : BitVec 48) : Int := (a - n.setWidth 48).toInt

/-- The reason shown in WAIT_ON (04 Table 4.5). -/
def waitReason (kind : BitVec 2) : WaitOn :=
  match kind.toNat with
  | 0 => .line | 1 => .event | 2 => .instant | _ => .gevent

/-- The WAIT completes at its evaluation. -/
def waitMet (ch : Nat) (s : State) : State :=
  past ch 8 (updChan ch (fun c => { c with dlArmed := false, dl := 0, newWait := true }) s)

/-- The halt of a deadline: DEADLINE, and the stale event in the same ccyc (05 R149). -/
def deadlineHalt (ch : Nat) (staleEn : Bool) (stale : Event) (s : State) : State :=
  let s := haltNow ch { cause := .deadline } s
  if staleEn then raiseBy ch stale s else s

/-- The condition of a WAIT on a line, event or global event is not met at its evaluation: the deadline is armed at a new
arrival, and one that has passed during a bivouac halts the channel (04 R100, 05 R148); otherwise the channel waits. DESIGN CHOICE: a WAIT
that a LOAD has put in the place of the one at which the channel was parked is no new arrival, and arms no deadline (log entry 46). -/
def waitNotMet (ch : Nat) (kind : BitVec 2) (dlen staleEn : Bool) (dl : BitVec 24) (stale : Event) (arg : BitVec 12)
    (s : State) : State :=
  let s := updChan ch (fun c =>
    if c.newWait then { c with newWait := false, dlArmed := dlen, dl := if dlen then s.clk.ridge + dl.setWidth 64 else 0 }
    else c) s
  let c := chan s ch
  if c.dlArmed && decide (c.dl.toNat ≤ s.clk.ridge.toNat) then deadlineHalt ch staleEn stale s
  else setChan ch { c with st := .waiting, waitOn := waitReason kind, waitArg := arg, waitAt := some s.clk.now } s

/-- A WAIT takes a pulse of its line; an edge handled in the same ccyc at count 15 takes the place left (03 R70, R73). -/
def takePulse (l : ReqLine) : ReqLine :=
  match l.use with
  | .over => { l with use := .counted }
  | .lost => { l with use := .counted }
  | .counted => { l with cnt := l.cnt - 1, use := if l.cnt = 1 then .none else .counted }
  | _ => { l with cnt := l.cnt - 1 }

/-- WAIT (05 R146, R147). -/
def waitEffect (ch : Nat) (i : Yabex) (s : State) : State :=
  match i with
  | .wait kind dlen staleEn miss dl stale arg =>
    let c := chan s ch
    match kind.toNat with
    | 0 =>
      if lineOwner s arg.toNat ≠ some ch then haltNow ch (illegal 8 0) s
      else
        let l := line s arg.toNat
        if l.cnt = 0 then waitNotMet ch kind dlen staleEn dl stale arg s
        else waitMet ch (updChan ch (fun c => { c with took := some (arg.toNat, l.cnt, l.use) }) (setLine arg.toNat (takePulse l) s))
    | 1 => if s.ev.delivered.contains arg.toNat then waitMet ch s else waitNotMet ch kind dlen staleEn dl stale arg s
    | 2 =>
      let a := reg4 c.a arg.toNat
      let d := instantOffset s.clk.ridge a
      if d = 0 then waitMet ch s
      else if d < 0 then
        if miss then haltNow ch { cause := .deadline, detail := 1, addr := a } s else waitMet ch s
      else setChan ch { c with st := .waiting, waitOn := .instant, waitArg := 0, dlArmed := false, newWait := false,
                               waitAt := some s.clk.now,
                               dl := s.clk.ridge + BitVec.ofInt 64 d } s
    | _ => if s.ev.gdelivered.getLsbD arg.toNat then waitMet ch s else waitNotMet ch kind dlen staleEn dl stale arg s
  | _ => s

/-- Execute WAIT. -/
def execWait (ch : Chan) (s : State) : Host.Outcome State Fault Refusal :=
  .next (execute (mayExecute s ch.toNat) ch 9 (waitEffect ch.toNat) s)

/-! ### SIGNAL, SIGNAL.F, FENCE, WATCH, STOP -/

/-- SIGNAL (05 R151). -/
def signalEffect (ch : Nat) (i : Yabex) (s : State) : State :=
  match i with
  | .signal e => past ch 8 (raiseBy ch e s)
  | _ => s

/-- Execute SIGNAL. -/
def execSignal (ch : Chan) (s : State) : Host.Outcome State Fault Refusal :=
  .next (execute (mayExecute s ch.toNat) ch 10 (signalEffect ch.toNat) s)

/-- Wait for the write responses of the channel (05 R152). -/
def waitFenced (ch : Nat) (s : State) : State :=
  updChan ch (fun c => { c with st := .waiting, waitOn := .fenced, waitArg := 0, waitAt := some s.clk.now }) s

/-- SIGNAL.F (05 R152); with an error response in its ccyc it raises nothing (08 R211). -/
def signalFEffect (ch : Nat) (i : Yabex) (s : State) : State :=
  match i with
  | .signalF e =>
    if stopping (chan s ch) then s
    else if wtagCount s ch = 0 then past ch 8 (raiseBy ch e s) else waitFenced ch s
  | _ => s

/-- The last response of a SIGNAL.F or FENCE that began to wait in the present ccyc has arrived in it: the instruction takes its effect at
once, as if it had found no tag outstanding (08 R211). -/
def fencesMet (s : State) : State :=
  (chansWhere s (fun ch c => c.st == .waiting && c.waitOn == .fenced && c.waitAt == some s.clk.now && !stopping c && wtagCount s ch == 0)).foldl
    (fun s ch =>
      let s' := updChan ch (fun c => { c with st := .running, waitOn := .none, waitAt := none }) s
      match obtain s (chan s ch) with
      | .word w => match decodeYabex w with
        | .ok (.signalF e) => past ch 8 (raiseBy ch e s')
        | _ => past ch 8 s'
      | _ => past ch 8 s') s

/-- Execute SIGNAL.F. -/
def execSignalF (ch : Chan) (s : State) : Host.Outcome State Fault Refusal :=
  .next (execute (mayExecute s ch.toNat) ch 11 (signalFEffect ch.toNat) s)

/-- FENCE (05 R152). -/
def fenceEffect (ch : Nat) (i : Yabex) (s : State) : State :=
  match i with
  | .fence =>
    if stopping (chan s ch) then s
    else if wtagCount s ch = 0 then past ch 8 s else waitFenced ch s
  | _ => s

/-- Execute FENCE. -/
def execFence (ch : Chan) (s : State) : Host.Outcome State Fault Refusal :=
  .next (execute (mayExecute s ch.toNat) ch 12 (fenceEffect ch.toNat) s)

/-- WATCH (05 R155). -/
def watchEffect (ch : Nat) (i : Yabex) (s : State) : State :=
  match i with
  | .watch n e =>
    if n.toNat ≤ (chan s ch).watchCnt.toNat then past ch 8 (raiseBy ch e (updChan ch (fun c => { c with watchCnt := 0 }) s))
    else past ch 8 s
  | _ => s

/-- Execute WATCH. -/
def execWatch (ch : Chan) (s : State) : Host.Outcome State Fault Refusal :=
  .next (execute (mayExecute s ch.toNat) ch 13 (watchEffect ch.toNat) s)

/-- The channel enters IDLE at a STOP, keeping CH_PC (05 R156). -/
def goIdle (ch : Nat) (s : State) : State :=
  updChan ch (fun c => { c with
    st := .idle, en := false, buf := none, hold := none, parkPend := false, newWait := true
    stopAt := some s.clk.now, startNext := c.enAt == some s.clk.now }) s

/-- STOP (05 R156). A fault and a park of the same ccyc come first; after a host write of 1 to EN in it the channel starts again in the
next (04 R99). DEDUCED: a STOP gives way to a fault of its ccyc, as 04 R99 says of a STOP, though 09 R226 lets the instruction of the ccyc
of detection take its effect (log entry 5). -/
def stopEffect (ch : Nat) (i : Yabex) (s : State) : State :=
  match i with
  | .stop => if (chan s ch).parkPend ∨ stopping (chan s ch) then s else goIdle ch s
  | _ => s

/-- Execute STOP. -/
def execStop (ch : Chan) (s : State) : Host.Outcome State Fault Refusal :=
  .next (execute (mayExecute s ch.toNat) ch 14 (stopEffect ch.toNat) s)

/-- Execute a word with a reserved opcode: ILLEGAL with detail 0x1 (05 R117, R119). -/
def execReservedOpcodeInstruction (ch : Chan) (s : State) : Host.Outcome State Fault Refusal :=
  .next (execute (mayExecute s ch.toNat) ch (if (wordAt s ch.toNat 15).isSome then 15 else 0) (fun _ s => s) s)

end Sys2Proof.Machine
end

