-- ==== Sys2Proof/Machine/Movement.lean ====
section
/-! DEFINITION. The data path (06; 02; 08 R209-R213): slots, reads, writes and their beats, retirement, credits, and what
the responses on a port do. -/

namespace Sys2Proof.Machine

/-! ### Beats (06 R171-R175) -/

/-- What staging holds for a destination unit. -/
inductive BeatState where
  /-- A source beat that it needs has not arrived. -/
  | missing
  /-- A source beat that it needs arrived bad. -/
  | bad
  /-- Whole: the source beats, the latest arrival, and whether it is forwarded (06 R171). -/
  | whole (src : List Staged) (time : Nat) (fwd : Bool)
  deriving DecidableEq, Repr

/-- The source beats of a destination unit, one for each byte it writes. -/
def sourcesOf (r : Run) (u : Nat) : List (Option Staged) :=
  (unitBytes r u).map (fun b => findStaged r b.2.1 (swapOffset r.geo.swap b.2.2))

/-- A byte keeps its lane from source to destination. -/
def sameLane (r : Run) (st : Staged) (b : Nat × Nat × Nat) : Bool := stagedAddr r.geo st b.2.1 b.2.2 % 32 == b.1

/-- The state of a destination unit. -/
def beatState (r : Run) (u : Nat) : BeatState :=
  if r.geo.imm.isSome then .whole [] 0 false
  else
    let bs := unitBytes r u
    let src := sourcesOf r u
    if src.any Option.isNone then .missing
    else
      let l := (src.filterMap id).eraseDups
      if l.any (·.bad) then .bad
      else .whole l (l.foldl (fun t st => max t st.time) 0)
        (r.geo.swap == 0 && l.length == 1 && l.all (fun st => bs.all (sameLane r st)))

/-- WD_STRB of a destination unit (02 R44). -/
def strobes (r : Run) (u : Nat) : BitVec 32 :=
  (unitBytes r u).foldl (fun m b => m ||| BitVec.ofNat 32 (2 ^ b.1)) 0

/-- A byte of a 256-bit beat. -/
def byteOf (d : BitVec 256) (k : Nat) : Nat := d.toNat / 256 ^ k % 256

/-- The byte written at offset `j` of element `i`, as the decoded source beats `dec` hold it (05 R126, R134). -/
def writtenByte (r : Run) (dec : Staged → BitVec 256) (i j : Nat) : Nat :=
  match r.geo.imm with
  | some v => v.toNat / 256 ^ j % 256
  | none =>
    let k := swapOffset r.geo.swap j
    match findStaged r i k with
    | some st => byteOf (dec st) (stagedAddr r.geo st i k % 32)
    | none => 0

/-- The data of a rebuilt beat: every unstrobed lane 0x00 (06 R172, R173). -/
def rebuild (r : Run) (dec : Staged → BitVec 256) (u : Nat) : BitVec 256 :=
  BitVec.ofNat 256 ((unitBytes r u).foldl (fun n b => n + writtenByte r dec b.2.1 b.2.2 * 256 ^ b.1) 0)

/-- The data of a code word after the check of the rebuild stage (06 Table 6.3). -/
def dataOf (st : Staged) : BitVec 256 :=
  match decodeBeat st.data st.chk with
  | .corrected d _ => d
  | _ => st.data

/-- The watched word of a MOVE, once its last element is whole (05 R134). -/
def watchedWord (r : Run) : BitVec 32 :=
  BitVec.ofNat 32 ((List.range (min 4 r.geo.e)).foldl (fun n j => n + writtenByte r dataOf (r.geo.n - 1) j * 256 ^ j) 0)

/-! ### Requests and beats on the port (02 R35-R45) -/

/-- A request with its parity (02 R37). -/
def withParity (q : RqOut) : RqOut :=
  let g : BitVec 23 := (BitVec.ofBool q.write ++ q.size ++ q.len) ++ (BitVec.ofBool q.priv ++ q.mid ++ q.dom ++ q.cls)
  { q with par := BitVec.ofBool (oddParity q.tag) ++ BitVec.ofBool (oddParity g) ++ BitVec.ofBool (oddParity q.addr) }

/-- The request as presented, with its attributes from the channel (02 R37, R42). -/
def rqOf (c : Channel) (q : Request) : RqOut :=
  withParity { write := q.write, addr := q.addr, size := q.size, len := BitVec.ofNat 3 (q.len - 1), tag := q.tag,
               priv := c.priv, mid := c.mid, dom := c.homeDom, cls := clsCode c.cls, par := 0 }

/-- A write-data beat as presented (02 R37). -/
def wdOf (data : BitVec 256) (chk : BitVec 19) (strb : BitVec 32) (last poison : Bool) : WdOut :=
  { data := data, chk := chk, strb := strb, last := last, poison := poison,
    par := oddParity (strb ++ BitVec.ofBool last ++ BitVec.ofBool poison) }

/-- The read tag, outstanding or staged, from which a late beat takes its bytes (09 Table 9.10, POISON_LATE). -/
def lateTag (s : State) (ch : Nat) (r : Run) (u : Nat) : Tag :=
  match (unitBytes r u).head? with
  | none => 0
  | some b =>
    match findStaged r b.2.1 (swapOffset r.geo.swap b.2.2) with
    | some st => st.tag
    | none => match (rtagList (port s r.geo.sport)).find? (fun t =>
        t.2.ch == ch && !t.2.fetch && t.2.cur && !t.2.stale && decide (t.2.lo ≤ b.2.1) && decide (b.2.1 < t.2.hi)) with
      | some t => BitVec.ofNat 6 t.1
      | none => 0

/-- Note on the write tag that beat `k` of its burst has gone out (02 R46, 06 R176). -/
def noteBeat (n : Nat) (tag : Tag) (k : Nat) (poison bad : Bool) (s : State) : State :=
  updPort n (fun p => { p with
    wdUsed := p.wdUsed + 1
    wtags := modify none p.wtags tag.toNat (fun t => t.map (fun t => { t with
      sent := k + 1, lastAt := s.clk.now,
      poison := if poison then (match t.poison with
        | some j => some j
        | none => some k) else t.poison,
      badSrc := t.badSrc || bad })) }) s

/-- Mark the read tag as having given its fault or log entry (09 R231), if it is still outstanding. -/
def markFailed (n : Nat) (tag : Tag) (stale : Bool) (s : State) : State :=
  updPort n (fun p => { p with rtags := modify none p.rtags tag.toNat (fun t => t.map (fun t => { t with
    failed := true, stale := t.stale || stale })) }) s

/-- Replace the slot of a tag in a run, or drop it once its last beat has left (06 R167). -/
def putSlot (r : Run) (sl : Slot) (last : Bool) : Run :=
  { r with slots := if last then r.slots.filter (fun x => x.tag != sl.tag)
                    else r.slots.map (fun x => if x.tag = sl.tag then sl else x) }

/-- The progress fields of the channel advance: no fault of it is detected, and it is not stopped (09 R226, R239). -/
def progressing (c : Channel) : Bool := !stopping c && c.st != .halted && c.st != .aborting

/-- A destination unit has left unpoisoned: progress, the watched word, and staging that no later unit needs. -/
def unitLeft (ch u : Nat) (r : Run) (s : State) : State :=
  let r := markDone r u
  let r' := { r with staged := r.staged.filter (fun st => decide (elemsUpTo r.geo r.wr < st.hi)) }
  updChan ch (fun c => { c with
    run := some r'
    tap := if r.geo.wt && u == unitOf r.geo (r.geo.n - 1) then some (watchedWord r) else c.tap
    moveWr := if progressing c && r.geo.imm.isNone then BitVec.ofNat 21 (movedElems r) else c.moveWr }) s

/-- The address of the failing beat of a staged beat's read: RQ_ADDR of a narrow one (06 R179; log entry 47). -/
def sourceAddr (g : Geometry) (st : Staged) : Nat :=
  if srcSingle g then st.s + (if g.sinc then st.lo * g.e else 0) else st.beat * 32

/-- The record of a source beat found uncorrectable in the rebuild stage (06 Table 6.4); no response bears it, so that its log entry has
RESP 0 and TAG 0 (09 Table 9.10). -/
def rebuildFault (r : Run) (st : Staged) : FaultRec :=
  { cause := .ecc, addr := BitVec.ofNat 48 (sourceAddr r.geo st), dir := dirRead, port := BitVec.ofNat 3 r.geo.sport, detail := 2 }

/-- The read that a staged beat came from is still outstanding under its tag: the same channel, elements and source address. -/
def sameRead (ch : Nat) (st : Staged) (t : RTag) : Bool :=
  t.ch == ch && !t.fetch && t.lo == st.lo && t.hi == st.hi && t.s == st.s

/-- The read of a staged beat, if outstanding, is a failing one (06 R179). -/
def markRead (ch n : Nat) (st : Staged) (s : State) : State :=
  match get none (port s n).rtags st.tag.toNat with
  | some t => if sameRead ch st t then markFailed n st.tag false s else s
  | none => s

/-- A source beat is uncorrectable in the rebuild stage: the fault of its read, if the channel can still halt for it (06 R179). -/
def rebuildHalt (ch : Nat) (r : Run) (st : Staged) (s : State) : State :=
  if (chan s ch).st = .aborting ∨ (chan s ch).st = .halted then s
  else detect ch (rebuildFault r st) (s.clk.now + 1) (markRead ch r.geo.sport st s)

/-- Present a poisoned beat (06 R175): `bad` for cases 2 and 3, else a late beat, which is logged once for its burst unless
the channel is aborted or halted (06 R170, 09 R229). Its code word is a free value (02 R55). -/
def sendPoison (n ch k : Nat) (sl : Slot) (r : Run) (bad last : Bool) (s : State) : State :=
  let u := sl.unit + k
  let quiet := bad || sl.lateLog || (chan s ch).st == .aborting || (chan s ch).st == .halted
  let s := if quiet then s else logFault { kind := 4, port := BitVec.ofNat 3 r.geo.sport, ch := BitVec.ofNat 10 ch,
                                           tag := lateTag s ch r u } s
  let w := wdOf (Config.freeBeat s.free) (Config.freeChk s.free) (strobes r u) last true
  let s := takeFree (updPort n (fun p => { p with wdOut := some w }) s)
  let s := noteBeat n sl.tag k true bad s
  updChan ch (fun c => { c with run := some (putSlot r { sl with badSrc := sl.badSrc || bad, lateLog := sl.lateLog || !bad } last) }) s

/-- Present a good beat: forwarded with its code word, or rebuilt after the checks of the rebuild stage (06 R171-R173). -/
def sendGood (n ch k : Nat) (sl : Slot) (r : Run) (src : List Staged) (fwd last : Bool) (s : State) : State :=
  let u := sl.unit + k
  match (if fwd then none else src.find? (fun st => decodeBeat st.data st.chk == .uncorrectable)) with
  | some st => sendPoison n ch k sl r true last (rebuildHalt ch r st s)
  | none =>
    let fixed := src.filter (fun st => !fwd && decodeBeat st.data st.chk != .clean)
    let s := fixed.foldl (fun s _ => countCorrection 1 s) s
    let w := match fwd, src with
      | true, st :: _ => wdOf st.data st.chk (strobes r u) last false
      | _, _ =>
        let d := rebuild r dataOf u
        wdOf d (encodeChk d) (strobes r u) last false
    let s := noteBeat n sl.tag k false false (updPort n (fun p => { p with wdOut := some w }) s)
    unitLeft ch u (putSlot r sl last) s

/-- The beat of a cut-through burst is in staging by its margin (06 R413); a burst launched whole needs none. -/
def inTime (s : State) (sl : Slot) (time : Nat) (fwd : Bool) : Bool :=
  !sl.cut || decide (time + (if fwd then 2 else 3) ≤ s.clk.now)

/-- Present beat `k` of the burst in slot `sl` on port `n` (02 R43, 06 R174, R175). DESIGN CHOICE: a beat whose source arrived bad
after the margin is a case 2 of 06 R175 and not a case 1 (log entry 46). -/
def sendBeat (n ch k : Nat) (sl : Slot) (s : State) : State :=
  match (chan s ch).run with
  | none => s
  | some r =>
    let last := k + 1 == sl.len
    let s := updPort n (fun p => { p with burst := if last then none else some { ch := ch, tag := sl.tag, len := sl.len, next := k + 1 } }) s
    if sl.badSrc then sendPoison n ch k sl r true last s
    else match beatState r (sl.unit + k) with
      | .bad => sendPoison n ch k sl r true last s
      | .missing => sendPoison n ch k sl r false last s
      | .whole src time fwd =>
        if inTime s sl time fwd then sendGood n ch k sl r src fwd last s else sendPoison n ch k sl r false last s

/-- The slot of a write tag in the channel's run. -/
def slotOf (s : State) (ch : Nat) (tag : Tag) : Option Slot :=
  match (chan s ch).run with
  | some r => r.slots.find? (fun sl => sl.tag == tag)
  | none => none

/-- Present a granted read (02 R38, R46): its tag is outstanding, CH_MOVE_RD counts it. -/
def presentRead (n : Nat) (q : Request) (s : State) : State :=
  let c := chan s q.ch
  let isFetch := match q.who with
    | .fetch _ => true
    | .mover _ => false
  let t : RTag := { ch := q.ch, fetch := isFetch, addr := q.addr, size := q.size, len := q.len, lo := q.lo, hi := q.hi,
                    s := match c.run with
                      | some r => r.geo.s
                      | none => 0 }
  let s := updPort n (fun p => { p with
    rqUsed := p.rqUsed + 1, rqOut := some (rqOf c q), presents := some q.who,
    rtags := put none p.rtags q.tag.toNat (some t) }) s
  if isFetch then s
  else updChan q.ch (fun c => { c with
    moveRd := BitVec.ofNat 21 q.hi
    run := c.run.map (fun r => { r with rd := q.hi }) }) s

/-- Present a granted write with beat 0 (02 R43). -/
def presentWrite (n : Nat) (q : Request) (s : State) : State :=
  let c := chan s q.ch
  let geo := match c.run with
    | some r => r.geo
    | none => {}
  let e0 := match c.run with
    | some r => r.e0
    | none => 0
  let t : WTag := { ch := q.ch, addr := q.addr, size := q.size, len := q.len, unit := q.lo, geo := geo, e0 := e0,
                    puti := geo.imm.isSome }
  let s := updPort n (fun p => { p with
    rqUsed := p.rqUsed + 1, rqOut := some (rqOf c q), presents := some q.who,
    wtags := put none p.wtags q.tag.toNat (some t) }) s
  match slotOf s q.ch q.tag with
  | some sl => sendBeat n q.ch 0 sl s
  | none => s

/-! ### Retirement (05 R127, R128, R134, R139) -/

/-- A poisoned burst of the MOVE has not been answered (06 R176). -/
def poisonPending (s : State) (ch : Nat) : Bool :=
  portRange.any (fun n => (wtagList (port s n)).any (fun t => t.2.ch == ch && t.2.cur && t.2.poison.isSome))

/-- The MOVE or PUTI of the channel can retire. -/
def canRetire (s : State) (ch : Nat) : Bool :=
  let c := chan s ch
  c.st == .running && c.inMove && !stopping c && !c.recheck &&
  (match c.run with | some r => allDone r | none => false) && !poisonPending s ch

/-- The A registers after a MOVE or PUTI (05 R127, R135). -/
def advanceA (g : Geometry) (a : Regs4 48) : Regs4 48 :=
  let k := BitVec.ofNat 48 (g.n * g.e)
  let a := if g.imm.isNone && g.sinc then setReg4 a g.sreg.toNat (reg4 a g.sreg.toNat + k) else a
  if g.dinc then setReg4 a g.dreg.toNat (reg4 a g.dreg.toNat + k) else a

/-- The repeat-value detector (05 R134). -/
def watchTap (w : BitVec 32) (c : Channel) : Channel :=
  if w = c.watchVal then { c with watchCnt := satAdd c.watchCnt 1 } else { c with watchVal := w, watchCnt := 0 }

/-- The instruction at CH_PC is a PUTI whose write goes to port `n` (05 R139). -/
def putiTo (s : State) (c : Channel) (n : Nat) : Bool :=
  match obtain s c with
  | .word w =>
    (yabexOpcode w).toNat == 2 &&
    (match windowAt s (reg4 c.a (fld w 58 2 : BitVec 2).toNat).toNat with
     | some win => win.port.toNat == n
     | none => false)
  | _ => false

/-- The ccyc after the port cycle in which the last beat of the channel's write leaves, counted from now; of a retirement that a
response brings, the next ccyc (05 R128, 06 R176). -/
def afterLast (s : State) (ch : Nat) (p : Port) : Nat :=
  if (wtagList p).any (fun t => t.2.ch == ch && beatNow s p t.2) then cycleStart s p + cycles p - s.clk.now else 1

/-- Retire the MOVE or PUTI of the channel: registers, progress, detector, mover; the next instruction executes in the ccyc
after the port cycle of its last beat. A PUTI to the same port that follows keeps the mover and executes at once (05 R139). DESIGN
CHOICE: it does so too where a response retires the instruction later than its last write (06 R176), of which 05 R139 does not speak
(log entry 46).
The watched word of a last element that was answered OK over poison is a free value (log entry 6). -/
def retire (ch : Nat) (s : State) : State :=
  match (chan s ch).run with
  | none => s
  | some r =>
    let g := r.geo
    let k := afterLast s ch (port s g.dport)
    let s := endTags ch (updChan ch (fun c =>
      let c' := stepPc (if g.imm.isSome ∧ g.e = 8 then 16 else 8)
        { c with a := advanceA g c.a, inMove := false, run := none, moveRd := 0, moveWr := 0, tap := none }
      if g.wt then watchTap (c.tap.getD (Config.freeWord s.free)) c' else c') s)
    let s := if g.wt then takeFree s else s
    let c := chan s ch
    if !c.parkPend && !s.mon.frzSched && putiTo s c g.dport then
      goOn ch 0 (updChan ch (fun c => { c with chainAt := some s.clk.now }) s)
    else goOn ch k (releaseOf ch s)

/-- Retire if it can (05 R120: a PUTI whose write is presented has taken its effect before any stop). -/
def settle (ch : Nat) (s : State) : State := if canRetire s ch then retire ch s else s

/-- MOVE_RETIRE (05 R128). -/
def execMoveRetire (ch : Chan) (s : State) : Host.Outcome State Fault Refusal := .next (settle ch.toNat s)

/-! ### Slots, reads and writes of a mover (06 R166-R168, R174) -/

/-- The tag may be taken by a channel's class (06 R166): `free` says which tags are free. -/
def tagPermitted (c : Channel) (tag : Tag) (free : Nat → Bool) : Bool :=
  free tag.toNat && (decide (tag.toNat < 56) || (c.cls == .urgent && (List.range 56).all (fun t => !free t)))

/-- The read slot of tag `t` of a port holds nothing: every byte has been taken into write slots (06 R169). -/
def slotTaken (s : State) (n t : Nat) : Bool :=
  s.chans.all (fun e => match e.2.run with
    | some r => r.geo.sport != n || r.staged.all (fun st => st.tag.toNat != t || st.bad || decide (st.ready ≤ s.clk.now))
    | none => true)

/-- A read tag of the port is free: not outstanding, not freed in this port cycle, not in a registered or granted request, and
its slot free (02 R46, 06 R169). -/
def readTagFree (s : State) (n t : Nat) : Bool :=
  let p := port s n
  (get none p.rtags t).isNone && !p.freedR.getLsbD t && slotTaken s n t &&
  (p.reqs ++ p.grant.toList).all (fun q => q.write || q.gone || q.tag.toNat != t)

/-- A write tag of the port is free: not outstanding, not freed in this port cycle, not a reserved slot of any channel. -/
def writeTagFree (s : State) (n t : Nat) : Bool :=
  (get none (port s n).wtags t).isNone && !(port s n).freedW.getLsbD t &&
  s.chans.all (fun e => match e.2.run with
    | some r => r.geo.dport != n || r.slots.all (fun sl => sl.tag.toNat != t)
    | none => true)

/-- The channel of a mover that is at work on a MOVE or PUTI and not to park. -/
def boundWork (s : State) (m : Nat) : Option (Nat × Run) :=
  match (mover s m).ch with
  | some ch =>
    let c := chan s ch
    match c.run with
    | some r => if coreOn s && c.st == .running && !c.parkPend && !c.recheck then some (ch, r) else none
    | none => none
  | none => none

/-- The channel of a mover that is at work on a MOVE or PUTI and not about to stop. -/
def workOf (s : State) (m : Nat) : Option (Nat × Run) := (boundWork s m).filter (fun w => !stopping (chan s w.1))

/-- The same, with a channel whose QUIESCE of the present ccyc a BROWNOUT of it would still precede (09 R228). -/
def launchWork (s : State) (m : Nat) : Option (Nat × Run) :=
  (boundWork s m).filter (fun w =>
    let c := chan s w.1
    match c.held with
    | none => true
    | some h => h.cause == .quiesce && c.faultAt == s.clk.now)

/-- A destination access of the MOVE has no slot and could take the tag (06 R167). -/
def canReserve (s : State) (ch : Nat) (r : Run) (tag : Tag) : Bool :=
  (!r.resend.isEmpty || decide (r.resv < units r.geo)) && decide (r.slots.length < 8) &&
  tagPermitted (chan s ch) tag (writeTagFree s r.geo.dport)

/-- SLOT_RESERVE (06 R167): a re-send first (06 R176), else the next destination access; at most 8 in the window. DESIGN CHOICE: a re-send
for which no write tag or no place in the window is free in the ccyc of its response waits for them (log entry 46). -/
def execSlotReserve (m : MoverNo) (tag : Tag) (s : State) : Host.Outcome State Fault Refusal :=
  .next (match workOf s m.toNat with
  | none => s
  | some (ch, r) =>
    if canReserve s ch r tag then
      let r' : Run := match r.resend with
        | (u, n, first) :: rest =>
          { r with resend := rest
                   slots := r.slots ++ [{ tag := tag, unit := u, len := n, whole := true, since := s.clk.now, first := first }] }
        | [] =>
          { r with resv := r.resv + dstLen r.geo r.resv
                   slots := r.slots ++ [{ tag := tag, unit := r.resv, len := dstLen r.geo r.resv, since := s.clk.now }] }
      updChan ch (fun c => { c with run := some r' }) s
    else s)

/-- Register a request (07 R192). -/
def register (n : Nat) (q : Request) (s : State) : State := updPort n (fun p => { p with reqs := p.reqs ++ [q] }) s

/-- The requester has a request registered on the port. -/
def hasRequest (s : State) (n : Nat) (who : Requester) : Bool := (port s n).reqs.any (fun q => q.who == who && !q.gone)

/-- A fault that stops an access that would issue (14 R366, R370): detected; the halt comes in the same ccyc unless beats are
owed (09 Table 9.5). -/
def stopAccess (ch : Nat) (r : FaultRec) (s : State) : State := detect ch r s.clk.now s

/-- A QUIESCE record for an access that would issue (09 Table 9.4). -/
def quiesceFault (a : Addr) (dir : BitVec 2) (n : Nat) : FaultRec :=
  { cause := .quiesce, addr := a, dir := dir, port := BitVec.ofNat 3 n }

/-- The destination access in slot `sl` may be launched, and whether under cut-through (06 R174): a rebuilt beat is ready a
ccyc later than its sources (06 R172), and these a ccyc after their arrival where a beat was corrected (06 Table 6.3). A
fixed destination is written in element order (05 R129). -/
def launchable (s : State) (r : Run) (sl : Slot) : Option Bool :=
  let good := fun k => match beatState r (sl.unit + k) with
    | .whole src _ fwd => r.geo.imm.isSome || decide (src.foldl (fun t st => max t st.ready) 0 + (if fwd then 0 else 1) ≤ s.clk.now)
    | _ => false
  if sl.launched || decide (s.clk.now < sl.first) || (!r.geo.dinc && r.slots.any (fun x => !x.launched && decide (x.unit < sl.unit))) then none
  else if (List.range sl.len).all good then some false
  else
    let ps := port s r.geo.sport
    let pd := port s r.geo.dport
    if 1 < sl.len ∧ !sl.whole ∧ mapped r.geo ∧ ps.stream ∧ (!ps.ratio || pd.ratio) ∧ good 0 then some true else none

/-- The first element that the next read of the MOVE is for: past a read that is granted and not yet presented. -/
def readCursor (s : State) (ch : Nat) (r : Run) : Nat :=
  match (port s r.geo.sport).grant with
  | some q => if q.ch = ch ∧ !q.write then q.hi else r.rd
  | none => r.rd

/-- READ_ISSUE by a mover (06 R167): once no further slot can be reserved, the next read for the elements of reserved slots. A write ready
for the same port is registered first (07 R192). -/
def issueRead (m : MoverNo) (tag : Tag) (s : State) : State :=
  match workOf s m.toNat with
  | none => s
  | some (ch, r) =>
    let n := r.geo.sport
    let lo := readCursor s ch r
    let hi := elemsUpTo r.geo r.resv
    if r.geo.imm.isSome || decide (hi ≤ lo) || !(port s n).en || hasRequest s n (.mover m) ||
        !tagPermitted (chan s ch) tag (readTagFree s n) ||
        (List.range 64).any (fun t => canReserve s ch r (BitVec.ofNat 6 t)) ||
        (n == r.geo.dport && r.slots.any (fun sl => (launchable s r sl).isSome)) then s
    else
      let a := nextRead r.geo lo hi
      if closedTo s (chan s ch) a.1 then stopAccess ch (quiesceFault (BitVec.ofNat 48 a.1) dirRead n) s
      else register n { who := .mover m, ch := ch, write := false, addr := BitVec.ofNat 48 a.1, size := a.2.1, len := a.2.2.1,
                        tag := tag, time := s.clk.now, lo := lo, hi := a.2.2.2 } s

/-- READ_ISSUE of a fetch (04 R105): one beat of the group, on the fetch port, once for the wait: a group that a broken tag has
lost is not fetched again (02 R62). -/
def issueFetch (ch : Chan) (tag : Tag) (s : State) : State :=
  let c := chan s ch.toNat
  match fetchGroup s c, fetchPort s with
  | some g, some n =>
    if !coreOn s || stopping c || c.fetched || !(port s n).en || hasRequest s n (.fetch ch) || !tagPermitted c tag (readTagFree s n) then s
    else if closedTo s c g.toNat then stopAccess ch.toNat (quiesceFault g dirFetch n) s
    else register n { who := .fetch ch, ch := ch.toNat, write := false, addr := g, size := 5, len := 1, tag := tag,
                      time := s.clk.now, lo := 0, hi := 0 } (setChan ch.toNat { c with fetched := true } s)
  | _, _ => s

/-- READ_ISSUE. -/
def execReadIssue (who : Requester) (tag : Tag) (s : State) : Host.Outcome State Fault Refusal :=
  .next (match who with
  | .mover m => issueRead m tag s
  | .fetch ch => issueFetch ch tag s)

/-- A BROWNOUT record for a write that would issue (09 Table 9.4). -/
def brownoutFault (a : Addr) (n : Nat) : FaultRec :=
  { cause := .brownout, addr := a, dir := dirWrite, port := BitVec.ofNat 3 n }

/-- The ccyc from which a write counts as registered: the port request of a PUTI that follows at once stays asserted
(05 R139). -/
def launchTime (s : State) (ch : Nat) (r : Run) : Nat :=
  let start := cycleStart s (port s r.geo.dport)
  if r.geo.imm.isSome && (match (chan s ch).chainAt with | some t => decide (start ≤ t) | none => false) then start - 1 else s.clk.now

/-- The source beat of a write launched whole that the rebuild stage finds uncorrectable: the write is not made (06 Table 6.3). -/
def rebuildBad (r : Run) (sl : Slot) (cut : Bool) : Option Staged :=
  if cut then none
  else (List.range sl.len).findSome? (fun k => match beatState r (sl.unit + k) with
    | .whole src _ false => src.find? (fun st => decodeBeat st.data st.chk == .uncorrectable)
    | _ => none)

/-- WRITE_LAUNCH (06 R174): register the write of a slot; an uncorrectable source, a closed domain and an NV window under
brown-out stop it (06 R178; 14 R366, R370). -/
def execWriteLaunch (m : MoverNo) (tag : Tag) (s : State) : Host.Outcome State Fault Refusal :=
  .next (match launchWork s m.toNat with
  | none => s
  | some (ch, r) =>
    let n := r.geo.dport
    match r.slots.find? (fun sl => sl.tag == tag) with
    | none => s
    | some sl => match launchable s r sl with
      | none => s
      | some cut =>
        let a := BitVec.ofNat 48 (dstAddr r.geo sl.unit)
        if !(port s n).en || hasRequest s n (.mover m) then s
        else if stopping (chan s ch) then
          if s.mon.nvStop && inNV s a.toNat then stopAccess ch (brownoutFault a n) s else s
        else match rebuildBad r sl cut with
        | some st => rebuildHalt ch r st s
        | none =>
        if s.mon.nvStop && inNV s a.toNat then stopAccess ch (brownoutFault a n) s
        else if closedTo s (chan s ch) a.toNat then stopAccess ch (quiesceFault a dirWrite n) s
        else register n { who := .mover m, ch := ch, write := true, addr := a, size := dstSize r.geo, len := sl.len, tag := tag,
                          time := launchTime s ch r, lo := sl.unit, hi := 0 }
          (updChan ch (fun c => { c with run := some (putSlot r { sl with launched := true, cut := cut } false) }) s))

/-! ### Leaving a halt (09 R234-R236) -/

/-- RESUME of a HALTED channel takes effect (09 Table 9.7): after ALIGN the MOVE or PUTI executes as a first execution. -/
def applyResume (ch : Nat) (s : State) : State :=
  goReady ch (updChan ch (fun c => { c with
    pendCmd := .none, leftAt := some s.clk.now, recheck := true, run := none, moveRd := if c.inMove then c.moveWr else c.moveRd,
    inMove := c.inMove && c.faultInfo.cause != .align
    newWait := c.newWait || c.faultInfo.cause == .deadline,
    faultInfo := { c.faultInfo with valid := false } }) s)

/-- The bytes that SKIP of the instruction `w` moves over (09 R236). -/
def skipBytes (c : Channel) (w : IWord) : Nat :=
  if c.faultInfo.cause = .fetch then (if c.faultAddr = c.faultPc.addr then 8 else 16)
  else if (yabexOpcode w).toNat = 2 ∧ bit w 57 then 16 else 8

/-- The A registers after SKIP of the instruction `w` (09 Table 9.8): as at the retirement of a MOVE or PUTI, whatever halted it. By how
much a MOVE with a reserved ESIZE advances is a free value (log entry 6). -/
def skipA (k : Nat) (a : Regs4 48) (w : IWord) : Regs4 48 :=
  match (yabexOpcode w).toNat with
  | 1 =>
    let ok := esizeOk (fld w 53 3)
    advanceA { e := if ok then esizeBytes (fld w 53 3) else (Config.freeAddr k).toNat
               n := if ok then (fld w 0 20 : BitVec 20).toNat + 1 else 1
               sinc := bit w 52, dinc := bit w 51, sreg := fld w 58 2, dreg := fld w 56 2 } a
  | 2 => advanceA { e := if bit w 57 then 8 else 4, n := 1, dinc := bit w 56, dreg := fld w 58 2, imm := some 0 } a
  | _ => a

/-- The A registers of a channel as the engine's update reads them: before a host write of the present ccyc (01 R21). -/
def engineA (s : State) (ch : Nat) : Regs4 48 :=
  match s.cfg.oldA with
  | some (k, a) => if k = ch then a else (chan s ch).a
  | none => (chan s ch).a

/-- An engine update of the A registers, with the words that the host has written in the present ccyc kept (01 R21). -/
def hostKeepsA (s : State) (ch : Nat) (v : Regs4 48) : Regs4 48 :=
  (List.range 4).foldl (fun r j =>
    let h := reg4 (chan s ch).a j
    let e := reg4 r j
    let lo : BitVec 32 := if hostWon (0x20008 + 32 * ch + 2 * j) s then fld h 0 32 else fld e 0 32
    let hi : BitVec 16 := if hostWon (0x20009 + 32 * ch + 2 * j) s then fld h 32 16 else fld e 32 16
    setReg4 r j (hi ++ lo)) v

/-- SKIP takes effect (09 R236). An instruction of system memory that the channel has not fetched is a free value (log entry 6). -/
def applySkip (ch : Nat) (s : State) : State :=
  let w := (knownWord s (chan s ch)).getD (Config.freeInstr s.free)
  goReady ch (endTags ch (updChan ch (fun c => { stepPc (skipBytes c w) { c with
    a := if c.faultInfo.cause = .fetch ∧ c.faultAddr = c.faultPc.addr then c.a
         else hostKeepsA s ch (skipA s.free (engineA s ch) w)
    pendCmd := .none, leftAt := some s.clk.now, recheck := false, run := none, inMove := false, moveRd := 0, moveWr := 0, tap := none,
    dlArmed := false, dl := 0, newWait := true,
    faultInfo := { c.faultInfo with valid := false } } with pastEnd := false }) (takeFree s)))

/-- A pending RESUME or SKIP takes effect once no tag of the faulting instruction is outstanding (09 R234). -/
def applyPending (ch : Nat) (s : State) : State :=
  let c := chan s ch
  if c.st = .halted ∧ ¬ instrTags s ch then
    match c.pendCmd with
    | .none => s
    | .resume => applyResume ch s
    | .skip => applySkip ch s
  else s

/-! ### Read responses (02 R47-R52, R61-R63) -/

/-- RD_PAR holds (02 R37). -/
def rdParityOk (b : RdBeat) : Bool :=
  bit b.par 0 == oddParity b.tag && bit b.par 1 == oddParity (BitVec.ofBool b.last ++ b.resp ++ b.detail)

/-- WR_PAR holds. -/
def wrParityOk (r : WrResp) : Bool :=
  bit r.par 0 == oddParity r.tag && bit r.par 1 == oddParity (r.resp ++ r.detail ++ r.beat)

/-- A response that failed parity (02 R62): logged with the channel of the tag it names, if that is outstanding. -/
def logParity (n : Nat) (dir : BitVec 2) (tag : Tag) (ch : Option Nat) (s : State) : State :=
  setCause 3 (logFault { kind := 7, port := BitVec.ofNat 3 n, dir := dir, tag := tag, detail := if ch.isSome then 0 else 1,
                         ch := BitVec.ofNat 10 (ch.getD 0) } s)

/-- An unknown tag (02 R61). -/
def logUnknown (n : Nat) (dir : BitVec 2) (tag : Tag) (resp : BitVec 3) (s : State) : State :=
  setCause 2 (logFault { kind := 6, port := BitVec.ofNat 3 n, dir := dir, tag := tag, resp := resp } s)

/-! ### Staging banks (06 R165) -/

/-- A staged beat that is still to be taken into a write bank: its channel, tag and place, the earliest reservation of a slot that
it feeds, its read bank and write bank, and the first ccyc in which it can go. -/
structure Offer where
  ch    : Nat
  tag   : Tag
  beat  : Nat
  since : Nat
  src   : Nat
  dst   : Nat
  first : Nat
  deriving DecidableEq, Repr

/-- The earliest ccyc in which a slot that a staged beat feeds was reserved. -/
def fedSince (r : Run) (st : Staged) : Nat :=
  let feeds := r.slots.filter (fun sl => (List.range (st.hi - st.lo)).any (fun k =>
    decide (sl.unit ≤ unitOf r.geo (st.lo + k)) && decide (unitOf r.geo (st.lo + k) < sl.unit + sl.len)))
  (feeds.map (·.since)).foldl min ((feeds.head?.map (·.since)).getD 0)

/-- The beats that are still to be taken in the present ccyc or later. -/
def offers (s : State) : List Offer :=
  s.chans.flatMap (fun e => match e.2.run with
    | some r => (r.staged.filter (fun st => !st.bad && decide (s.clk.now ≤ st.ready))).map (fun st =>
        { ch := e.1, tag := st.tag, beat := st.beat, since := fedSince r st, src := r.geo.sport, dst := r.geo.dport,
          first := max s.clk.now (if st.late then st.time + 1 else st.time) })
    | none => [])

/-- The order in which a write bank accepts beats: by the ccyc of reservation, then by the read bank. DESIGN CHOICE: of two beats of one
read bank whose slots were reserved in one ccyc, the one staged later goes first (log entry 12). -/
def offerBefore (a b : Offer) : Bool := decide (a.since < b.since) || (a.since == b.since && decide (a.src < b.src))

/-- Each beat goes in the first ccyc in which neither its read bank nor its write bank is taken by one before it. -/
def takeTimes (l : List Offer) : List (Offer × Nat) :=
  l.foldl (fun done o =>
    let busy := fun t => done.any (fun d => d.2 == t && (d.1.src == o.src || d.1.dst == o.dst))
    done ++ [(o, o.first + ((List.range (done.length + 1)).find? (fun k => !busy (o.first + k))).getD 0)]) []

/-- The ccyc in which each waiting beat is taken, as the beats now stand. -/
def schedule (s : State) : State :=
  let l := takeTimes (sortBy offerBefore (offers s))
  (l.map (·.1.ch)).eraseDups.foldl (fun s ch => updChan ch (fun c => { c with run := c.run.map (fun r => { r with
    staged := r.staged.map (fun st =>
      match l.find? (fun d => d.1.ch == ch && d.1.tag == st.tag && d.1.beat == st.beat && !st.bad && decide (s.clk.now ≤ st.ready)) with
      | some d => { st with ready := d.2 }
      | none => st) }) }) s) s

/-- A read beat is staged (06 R163). -/
def stage (ch : Nat) (t : RTag) (tag : Tag) (beat : Nat) (data : BitVec 256) (chk : BitVec 19) (bad : Bool) (s : State) : State :=
  schedule (updChan ch (fun c => { c with run := c.run.map (fun r => { r with
    staged := r.staged ++ [{ beat := beat, lo := t.lo, hi := t.hi, s := t.s, data := data, chk := chk, time := s.clk.now,
                             late := t.late, ready := s.clk.now, bad := bad, tag := tag }] }) }) s)

/-- Note on the read tag, if still outstanding, that a beat of it was corrected (06 Table 6.3). -/
def markLate (n : Nat) (tag : Tag) (s : State) : State :=
  updPort n (fun p => { p with rtags := modify none p.rtags tag.toNat (fun t => t.map (fun t => { t with late := true })) }) s

/-- The scheduler has reached the READY channel in the present ccyc: it has selected it, or passed over it (07 R182). -/
def reachedNow (s : State) (ch : Nat) : Bool :=
  selectedNow s ch || ((chan s ch).st == .ready && s.clk.selectAt == some s.clk.now && s.clk.passed.contains ch)

/-- The channel as a response error of the present ccyc finds it: before a park and before its own progress in this ccyc (04 R99). -/
def beforeResponse (ch : Nat) (s : State) : State := yieldPark ch (yieldProgress ch s)

/-- A fault that a response carries is detected; of a channel that the scheduler has reached in this ccyc it is raised in it (07 R188). -/
def detectResponse (ch : Nat) (r : FaultRec) (haltAt : Nat) (s : State) : State :=
  let reached := reachedNow s ch
  let s := detect ch r haltAt (beforeResponse ch s)
  if reached then updChan ch (fun c => { c with raised := true }) s else s

/-- A bad beat of a data read (09 R229-R232, 08 R213): no longer needed, logged as CH_DISCARD once for its tag, in any state of the
channel; needed, a fault of the channel once for its tag, secondary where an instruction's fault has halted the channel in the same ccyc;
a channel HALTED before discards it. DESIGN CHOICE: the ADDR of a CH_DISCARD entry is the failing beat's (log entry 46). -/
def badReadBeat (n : Nat) (t : RTag) (b : RdBeat) (a : Addr) (cause : Cause) (detail : BitVec 4) (needed : Bool) (s : State) : State :=
  let rec' : FaultRec := { cause := cause, addr := a, dir := dirRead, port := BitVec.ofNat 3 n, detail := detail,
                           resp := b.resp, tag := b.tag }
  if t.failed then s
  else if needed then markFailed n b.tag false (detectResponse t.ch rec' (s.clk.now + 1) s)
  else if (chan s t.ch).st == .halted && !t.stale then
    if (chan s t.ch).haltAt = s.clk.now then markFailed n b.tag false (secondError t.ch rec' s) else s
  else markFailed n b.tag true (logFault { kind := 3, port := BitVec.ofNat 3 n, ch := BitVec.ofNat 10 t.ch, resp := b.resp,
                                            tag := b.tag, addr := a, detail := detail } s)

/-- A beat that fails: an error response or an uncorrectable code word (02 R52, 06 R178). -/
def failingBeat (b : RdBeat) : Bool := b.resp != 0 || decodeBeat b.data b.chk == .uncorrectable

/-- A beat of a data read lands in staging or raises a fault (02 R52, 06 R178). -/
def dataBeat (n : Nat) (t : RTag) (b : RdBeat) (s : State) : State :=
  let a := beatAddr t.addr t.size t.got
  let beat := a.toNat / 32
  let c := chan (if failingBeat b then beforeResponse t.ch s else s) t.ch
  let needed := c.st != .halted && beatNeeded c t beat
  let bad := fun cause detail => 
    let s := badReadBeat n t b a cause detail needed s
    if needed then stage t.ch t b.tag beat b.data b.chk true s else s
  if b.resp = 0 then
    match decodeBeat b.data b.chk with
    | .clean => if needed then stage t.ch t b.tag beat b.data b.chk false s else s
    | .corrected d k =>
      let s := markLate n b.tag (countCorrection 0 s)
      if needed then stage t.ch { t with late := true } b.tag beat d k false s else s
    | .uncorrectable => bad .ecc 1
  else bad (respCause b.resp) (respDetail b.resp b.detail)

/-- The four instructions of a fetched beat (04 R105). -/
def groupWords (d : BitVec 256) : List IWord := [fld d 0 64, fld d 64 64, fld d 128 64, fld d 192 64]

/-- A fetched group replaces the prefetch buffer, and the channel becomes READY (04 R105). -/
def groupArrives (ch : Nat) (a : Addr) (d : BitVec 256) (s : State) : State :=
  goReady ch (updChan ch (fun c => { c with
    buf := some { base := { sys := true, addr := a }, words := groupWords d }, fetchIn := none }) (noteBefore ch s))

/-- The fetched groups that a correction held for a ccyc arrive (06 Table 6.3). -/
def heldGroups (s : State) : State :=
  (chansWhere s (fun _ c => c.fetchIn.isSome && c.st == .waiting && c.waitOn == .fetch && !stopping c)).foldl (fun s ch =>
    match (chan s ch).fetchIn with
    | some (t, a, d) => if t < s.clk.now then groupArrives ch a d s else s
    | none => s) s

/-- A fetch beat (04 R105): its fault is a fetch fault; a fetch that the channel no longer waits for is discarded, and an
error on it is held with a PARKED channel (09 R232). DESIGN CHOICE: the channel halts in the ccyc after the beat arrives, for which 09
Table 9.5 has no row (log entry 46). -/
def fetchBeat (n : Nat) (t : RTag) (b : RdBeat) (s : State) : State :=
  let c := chan s t.ch
  let waits := !t.stale && c.st == .waiting && c.waitOn == .fetch
  let live := waits && !stopping c
  let fail := fun (cause : Cause) (detail : BitVec 4) (s : State) =>
    if waits || c.st == .parked then
      detectResponse t.ch { cause := cause, addr := t.addr, dir := dirFetch, port := BitVec.ofNat 3 n, detail := detail,
                            resp := b.resp, tag := b.tag } (s.clk.now + 1) s
    else if c.st == .halted then s
    else logFault { kind := 3, port := BitVec.ofNat 3 n, ch := BitVec.ofNat 10 t.ch, resp := b.resp, tag := b.tag,
                    addr := t.addr, detail := detail } s
  if b.resp = 0 then
    match decodeBeat b.data b.chk with
    | .clean => if live then groupArrives t.ch t.addr b.data s else s
    | .corrected d _ =>
      let s := countCorrection 0 s
      if live then updChan t.ch (fun c => { c with fetchIn := some (s.clk.now, t.addr, d) }) s else s
    | .uncorrectable => fail .ecc 1 s
  else fail (respCause b.resp) (respDetail b.resp b.detail) s

/-- Count a beat of a read tag, freeing the tag at its final beat (02 R46). -/
def countBeat (n : Nat) (b : RdBeat) (t : RTag) (s : State) : State :=
  updPort n (fun p => { p with
    rtags := put none p.rtags b.tag.toNat (if b.last then none else some { t with got := t.got + 1 })
    freedR := if b.last then setBit p.freedR b.tag.toNat true else p.freedR }) s

/-- The final beat of a read tag: after a failing one a halt that waits for it may come from the next ccyc on (09 Table 9.5). -/
def afterFinal (ch : Nat) (failed : Bool) (s : State) : State :=
  let s := updChan ch (fun c => if waitsForTags c && failed then { c with haltAt := max c.haltAt (s.clk.now + 1) } else c) s
  applyPending ch s

/-- The tag of a beat is a failing one once the beat has been taken (09 R231). -/
def failsWith (s : State) (t : RTag) (b : RdBeat) : Bool :=
  t.failed || (failingBeat b && !t.stale && (t.fetch || beatNeeded (chan s t.ch) t ((beatAddr t.addr t.size t.got).toNat / 32)))

/-- A beat that is absorbed is checked as it enters: a correction is counted (06 R178, Table 6.3). -/
def absorbBeat (b : RdBeat) (s : State) : State :=
  if b.resp = 0 then
    match decodeBeat b.data b.chk with
    | .corrected _ _ => countCorrection 0 s
    | _ => s
  else s

/-- READ_RESPONSE_BEAT (02 R47-R52, R61-R63). A beat that breaks R48 or carries a reserved code is a protocol violation. -/
def execReadResponseBeat (n : PortNo) (b : RdBeat) (s : State) : Host.Outcome State Fault Refusal :=
  let p := port s n.toNat
  if !p.en || !coreOn s then .next s
  else if !rdParityOk b then
    .next (updPort n.toNat (mapRtags (fun t => { t with broken := true }))
      (logParity n.toNat dirRead b.tag ((get none p.rtags b.tag.toNat).map (·.ch)) s))
  else match get none p.rtags b.tag.toNat with
    | none => .next (logUnknown n.toNat dirRead b.tag b.resp s)
    | some t =>
      if t.broken then .next (afterFinal t.ch t.failed (countBeat n.toNat b t s))
      else if b.last != (t.got + 1 == t.len) then .fault .protocolViolation
      else if t.orphan || (chan s t.ch).st == .aborting then .next (countBeat n.toNat b t (absorbBeat b s))
      else if 4 < b.resp.toNat then .fault .protocolViolation
      else
        let s1 := countBeat n.toNat b t s
        let s2 := if t.fetch then fetchBeat n.toNat t b s1 else dataBeat n.toNat t b s1
        .next (if b.last then afterFinal t.ch (failsWith s t b) s2 else s2)

/-! ### Write responses (02 R49, R53; 06 R176; 09 R230-R233) -/

/-- The first element with a byte in beat `k` of a write (09 R230). -/
def firstElem (t : WTag) (k : Nat) : Nat :=
  let u := t.unit + k
  if dstSingle t.geo then u else max t.e0 (elemsUpTo t.geo u)

/-- An error of a write of the MOVE at which the channel stands lowers CH_MOVE_WR (09 R230). -/
def lowerMoveWr (t : WTag) (k : Nat) (s : State) : State :=
  if t.cur ∧ ¬ t.puti ∧ (chan s t.ch).inMove then
    updChan t.ch (fun c => { c with moveWr := BitVec.ofNat 21 (min c.moveWr.toNat (firstElem t k)) }) s
  else s

/-- The poisoned beats of a burst were answered OK: they count as written (06 R176). -/
def poisonStored (t : WTag) (k : Nat) (s : State) : State :=
  updChan t.ch (fun c => match c.run with
    | none => c
    | some r =>
      let r := (List.range (t.len - k)).foldl (fun r j => markDone r (t.unit + k + j)) r
      { c with run := some r, moveWr := if progressing c then BitVec.ofNat 21 (movedElems r) else c.moveWr }) s

/-- The poisoned beats of a burst are to be sent again (06 R176). -/
def poisonResend (t : WTag) (k : Nat) (s : State) : State :=
  updChan t.ch (fun c => { c with run := c.run.map (fun r => { r with
    resend := r.resend ++ [(t.unit + k, t.len - k, s.clk.now + 1)] }) }) s

/-- The record of a failed write (09 Table 9.4): of the MOVE at which the channel stands its own cause, else LATE. -/
def writeFault (n : Nat) (t : WTag) (r : WrResp) (late : Bool) : FaultRec :=
  let cause := respCause r.resp
  { cause := if late then .late else cause
    addr := beatAddr t.addr t.size r.beat.toNat
    dir := dirWrite, port := BitVec.ofNat 3 n, resp := r.resp, tag := r.tag
    detail := if !late && cause == .ecc then 3 else respDetail r.resp r.detail }

/-- The first ccyc for the halt of a failed write (09 Tables 9.5, 9.6): of a READY channel that in which it is raised; of a late
error at a MOVE or PUTI the present one, unless the channel has come to it in the present ccyc; else the next. -/
def writeHaltAt (s : State) (ch : Nat) (late : Bool) : Nat :=
  let c := chan s ch
  if c.st = .ready ∨ (c.st = .running ∧ late ∧ c.nextAt ≤ s.clk.now ∧ atMover s c) then s.clk.now else s.clk.now + 1

/-- A late error halts an IDLE or PARKED channel at once (09 R233, Table 9.6). -/
def haltLate (ch : Nat) (r : FaultRec) (s : State) : State :=
  updChan ch (fun c => { c with latched := some r }) (haltNow ch r s)

/-- A failed write acts on its channel (09 R231-R233, Table 9.6). A MOVE whose last beat leaves in this port cycle has retired
(05 R128). DESIGN CHOICE: an IDLE or PARKED channel that already holds a fault halts with LATE, and the held one is logged as
secondary (log entry 46). -/
def failedWrite (n : Nat) (t : WTag) (r : WrResp) (s : State) : State :=
  let reached := reachedNow s t.ch
  let s := unstop t.ch (beforeResponse t.ch s)
  let t := if canRetire s t.ch then { t with cur := false } else t
  let s := lowerMoveWr t r.beat.toNat (settle t.ch s)
  let late := !t.cur || t.puti
  match (chan s t.ch).st with
  | .halted => secondError t.ch (writeFault n t r late) s
  | .idle => haltLate t.ch (writeFault n t r true) s
  | .parked =>
    if parkedReady s t.ch then detect t.ch (writeFault n t r late) s.clk.now s else haltLate t.ch (writeFault n t r true) s
  | _ =>
    let s := detect t.ch (writeFault n t r late) (writeHaltAt s t.ch late) s
    if reached then updChan t.ch (fun c => { c with raised := true }) s else s

/-- A response to a write of a channel that is neither aborting nor orphaned. -/
def answeredWrite (n : Nat) (t : WTag) (r : WrResp) (s : State) : State :=
  if r.resp = 0 then
    match t.poison with
    | some k => if t.cur then poisonStored t k s else s
    | none => s
  else match t.poison with
    | some k =>
      if r.resp = 4 ∧ k ≤ r.beat.toNat then
        if t.badSrc ∨ ¬ t.cur then s else poisonResend t k s
      else failedWrite n t r s
    | none => failedWrite n t r s

/-- WRITE_RESPONSE (02 R49, R53, R61-R63). A response before the burst has left, a reserved code, or an index that names no
beat of the burst is a protocol violation. -/
def execWriteResponse (n : PortNo) (r : WrResp) (s : State) : Host.Outcome State Fault Refusal :=
  let p := port s n.toNat
  if !p.en || !coreOn s then .next s
  else if !wrParityOk r then .next (logParity n.toNat dirWrite r.tag ((get none p.wtags r.tag.toNat).map (·.ch)) s)
  else match get none p.wtags r.tag.toNat with
    | none => .next (logUnknown n.toNat dirWrite r.tag r.resp s)
    | some t =>
      let s1 := updPort n.toNat (fun p => { p with
        wtags := put none p.wtags r.tag.toNat none, freedW := setBit p.freedW r.tag.toNat true }) s
      if t.orphan then .next s1
      else if t.sent < t.len ∨ s.clk.now ≤ t.lastAt then .fault .protocolViolation
      else if (chan s t.ch).st = .aborting then .next s1
      else if 4 < r.resp.toNat ∨ t.len ≤ r.beat.toNat ∨ (r.resp = 0 ∧ r.beat ≠ 0) then .fault .protocolViolation
      else .next (applyPending t.ch (answeredWrite n.toNat t r s1))

/-! ### Credits (02 R56-R58) -/

/-- The request credits of the next port cycle (02 R56). -/
def nextRq (p : Port) : Nat := p.rqCred + p.rqRet - p.rqUsed
/-- The write-data credits of the next port cycle. -/
def nextWd (p : Port) : Nat := p.wdCred + p.wdRet - p.wdUsed

/-- CREDIT_RETURN. -/
def execCreditReturn (n : PortNo) (wd : Bool) (s : State) : Host.Outcome State Fault Refusal :=
  let p := port s n.toNat
  .next (if !p.en || !coreOn s then s
  else if (if wd then decide (64 ≤ nextWd p) else decide (32 ≤ nextRq p)) then
    setCause 1 (logFault { kind := 5, port := n, detail := if wd then 1 else 0 } s)
  else setPort n.toNat (if wd then { p with wdRet := p.wdRet + 1 } else { p with rqRet := p.rqRet + 1 }) s)

end Sys2Proof.Machine
end

