-- ==== Sys2Proof/Machine/Sched.lean ====
section
/-! DEFINITION. The scheduler (07 R181-R189) and the port arbiters (07 R192-R206). -/

namespace Sys2Proof.Machine

/-! ### Ranking (07 R181) -/

/-- The rank of a class: URGENT above TIMED above BULK. -/
def clsRank : Cls → Nat
  | .urgent => 2 | .timed => 1 | .bulk => 0

/-- The age of a candidate, counted to 65,535. -/
def candAge (s : State) (ch : Nat) : Nat := min 65535 (s.clk.now - (chan s ch).since)

/-- The commits in force in core cycle `t`, oldest first: their wrap has come, whether or not PEG_COMMIT_WRAP stands before (07
R202). -/
def commitsBy (s : State) (t : Nat) : List PegCommit := s.pegCommits.filter (fun c => decide (c.wrap ≤ t) && c.taken.isSome)

/-- PRIO in force in core cycle `t`. -/
def prioAt (s : State) (ch t : Nat) : BitVec 3 :=
  (commitsBy s t).foldl (fun v c => match c.taken with
    | some (_, prios) => if c.prio then get 0 prios ch else v
    | none => v) (chan s ch).prio

/-- Channel `a` ranks above channel `b` (07 Table 7.1). -/
def ranksAbove (s : State) (a b : Nat) : Bool :=
  let key := fun (ch : Nat) =>
    ((clsRank (chan s ch).cls * 8 + (prioAt s ch (coreCycle s)).toNat) * 65536 + candAge s ch) * 1024 + (1023 - ch)
  decide (key b < key a)

/-! ### Candidates (07 R182) -/

/-- A channel is a candidate of the present ccyc. A READY channel is one from the ccyc after it became READY (07 R190), a victim on its way
to PARKED included, until its park comes (04 R99). DESIGN CHOICE: so
is a victim, though it "becomes a candidate anew" in the ccyc s of the takeover (07 R187): s is the origin of its age only (log entry
46). -/
def isCandidate (s : State) (ch : Nat) (c : Channel) : Bool :=
  (c.st == .ready && decide (c.since < s.clk.now) && !c.raised && !parkDue s ch c) ||
  (c.st == .running && decide (c.since ≤ s.clk.now) && !stopping c && !c.parkPend && (moverOf s ch).isNone && atMover s c)

/-- The candidates in rank order. -/
def candidates (s : State) : List Nat := sortBy (ranksAbove s) (chansWhere s (isCandidate s))

/-! ### Movers (07 R184-R188) -/

/-- The pools a class binds from, first to last, as ranges of movers (07 Table 7.2). -/
def poolsOf (s : State) (c : Cls) : List (Nat × Nat) :=
  let u := s.ures.toNat
  let t := u + s.tres.toNat
  match c with
  | .urgent => [(0, u), (t, 64), (u, t)]
  | .timed => [(u, t), (t, 64)]
  | .bulk => [(t, 64)]

/-- The lowest-numbered free mover of the first pool that has one. -/
def freeMover (s : State) (c : Cls) : Option Nat :=
  (poolsOf s c).findSome? (fun p =>
    (List.range 64).find? (fun m => decide (p.1 ≤ m) && decide (m < p.2) && (mover s m).ch.isNone))

/-- The BULK channels that hold a mover, with it. -/
def victims (s : State) : List (Nat × Nat) :=
  s.movers.filterMap (fun e => match e.2.ch with
    | some ch => if (chan s ch).cls = .bulk then some (ch, e.1) else none
    | none => none)

/-- The choice of a victim (07 R186): lowest PRIO in force, most recent binding, highest channel number. -/
def betterVictim (s : State) (a b : Nat × Nat) : Bool :=
  let k := fun (v : Nat × Nat) => ((7 - (prioAt s v.1 (coreCycle s)).toNat), (mover s v.2).since, v.1)
  let x := k a
  let y := k b
  decide (y.1 < x.1) || (x.1 == y.1 && (decide (y.2.1 < x.2.1) || (x.2.1 == y.2.1 && decide (y.2.2 < x.2.2))))

/-- The victim loses its mover: READY in its MOVE or PUTI with its slots and staging kept; a PUTI will execute again
(07 R187, 05 R138). -/
def displace (v : Nat) (s : State) : State :=
  updChan v (fun c => { c with
    st := .ready, since := s.clk.now, inMove := true
    recheck := c.recheck || !c.inMove || (match c.run with
      | some r => r.geo.imm.isSome
      | none => true) }) (withdraw v s)

/-- Bind mover `m` to channel `ch`, which runs with it, its buffer refilled (04 R103); a claim of the channel on the mover taken from it
is over (07 R189). -/
def bind (m ch : Nat) (victim : Option Nat) (s : State) : State :=
  updChan ch (fun c => refill s { c with st := .running, nextAt := s.clk.now })
    (setMover m { ch := some ch, since := s.clk.now, victim := victim } (dropClaim ch s))

/-- What a victim's own ccyc has brought it comes before the takeover: the retirement of a PUTI or MOVE that has just left, the halt of a
fault that Table 9.5 does not hold back (07 R188), a park that is due (04 R99). -/
def settleVictim (v : Nat) (s : State) : State :=
  let s := settle v s
  let c := chan s v
  if stopping c then enterHeld v s
  else if parkDue s v c then enterPark v c.parkSrcNext s
  else s

/-- Bind a mover to a candidate, if one can be obtained (07 R184, R186); `none` if not. -/
def obtainMover (ch : Nat) (s : State) : Option State :=
  let c := chan s ch
  match freeMover s c.cls with
  | some m => some (bind m ch none s)
  | none =>
    if c.cls = .urgent then
      match bestBy (betterVictim s) (victims s) with
      | none => none
      | some (v, m) =>
        let s := settleVictim v s
        match freeMover s c.cls with
        | some m' => some (bind m' ch none s)
        | none => some (bind m ch (some v) (displace v (dropHolder m s)))
    else none

/-- The scheduler passes over a candidate, which it has reached in the present ccyc (07 R182). -/
def passOver (ch : Nat) (s : State) : State := { s with clk := { s.clk with passed := ch :: s.clk.passed } }

/-- Handle one candidate with the budgets of selections and bindings left (07 R182). -/
def handle (ch : Nat) (b : State × Nat × Nat) : State × Nat × Nat :=
  let (s, sel, bnd) := b
  let c := chan s ch
  if (sel = 0 ∧ bnd = 0) ∨ !isCandidate s ch c then b
  else if stopping c then (raiseHeld ch s, sel, bnd)
  else if atMover s c then
    let need := if c.st = .ready then 1 else 0
    if need ≤ sel ∧ 0 < bnd then
      match obtainMover ch (noteBefore ch s) with
      | some s' => (s', sel - need, bnd - 1)
      | none => (passOver ch s, sel, bnd)
    else (passOver ch s, sel, bnd)
  else if 0 < sel then
    (comeTo ch (updChan ch (fun c => { c with st := .running, nextAt := s.clk.now }) (noteBefore ch s)), sel - 1, bnd)
  else (passOver ch s, sel, bnd)

/-- The scheduler selects: CORE runs, no freeze (17 R401) and no soft reset in progress (14 R359). -/
def schedOn (s : State) : Bool := coreOn s && !s.mon.frzSched && s.srst.start.isNone && s.clk.selectAt != some s.clk.now

/-- The pass of one ccyc (07 R182). -/
def selectPass (s : State) : State :=
  if schedOn s then
    ((candidates s).foldl (fun b ch => handle ch b) ({ s with clk := { s.clk with selectAt := some s.clk.now, passed := [] } }, 8, 8)).1
  else s

/-- CHANNEL_SELECT (07 R182). -/
def execChannelSelect (s : State) : Host.Outcome State Fault Refusal := .next (selectPass s)

/-! ### Port arbiters -/

/-- The core cycle in which the next port cycle begins. -/
def nextCycle (s : State) (p : Port) : Nat := cycleStart s p + cycles p - s.clk.coreBase

/-- The key of peg `k` of port `n` in the peg tables. -/
def pegKey (n k : Nat) : Nat := n * 64 + k

/-- Peg `k` of port `n` as in force in core cycle `t` (07 R202). -/
def pegIn (s : State) (n k t : Nat) : BitVec 16 :=
  (commitsBy s t).foldl (fun v c => match c.taken with
    | some (pegs, _) => if c.ports.getLsbD n then get 0 pegs (pegKey n k) else v
    | none => v) (get 0 s.pegAct (pegKey n k))

/-- The peg of port `n` in use in the port cycle beginning in core cycle `t` (07 R200). -/
def pegAt (s : State) (n t : Nat) : BitVec 16 := pegIn s n ((if (port s n).ratio then t / 2 else t) % 64) t

/-- The background ranking (07 Table 7.5). -/
def bgAbove (s : State) (p : Port) (t : Nat) (a b : Request) : Bool :=
  let k := fun (q : Request) =>
    ((clsRank (chan s q.ch).cls * 8 + (prioAt s q.ch t).toNat) * 65536 + get 0 p.ages (reqKey q.who)) * 2048 +
      (2047 - reqKey q.who)
  decide (k b < k a)

/-- The owner of a peg among the visible requests (07 R201). -/
def pegOwner (s : State) (peg : BitVec 16) (above : Request → Request → Bool) (v : List Request) : Option Request :=
  match (fld peg 14 2 : BitVec 2).toNat with
  | 1 =>
    let mine := v.filter (fun q => q.ch == (fld peg 0 10 : BitVec 10).toNat)
    match mine.find? (fun q => match q.who with | .mover _ => true | .fetch _ => false) with
    | some q => some q
    | none => mine.head?
  | 2 => bestBy above (v.filter (fun q => clsCode (chan s q.ch).cls == fld peg 0 2))
  | _ => none

/-- A request is eligible for the next port cycle (07 R194). -/
def eligible (p : Port) (q : Request) : Bool :=
  decide (1 ≤ nextRq p) && (!q.write || (decide (q.len ≤ nextWd p) && p.burst.isNone))

/-- The burst whose beats are owed is the last write of the MOVE of the holder's channel, and a PUTI to the same port follows: the
grant stays with the channel (05 R139). -/
def chainAhead (s : State) (n : Nat) (p : Port) : Bool :=
  match p.holder, p.burst with
  | some (.mover m), some b =>
    let c := chan s b.ch
    (mover s m.toNat).ch == some b.ch && !stopping c && !c.parkPend &&
    (match c.run, c.hold.isNone with
     | some r, true =>
       r.geo.dport == n && r.resend.isEmpty && r.resv == units r.geo && r.slots.all (fun sl => sl.tag == b.tag) &&
       putiTo s (stepPc (if r.geo.imm.isSome ∧ r.geo.e = 8 then 16 else 8) { c with a := advanceA r.geo c.a }) n
     | _, _ => false)
  | _, _ => false

/-- The order in which a request is chosen: URGENT with the peg's owner first, then the owner, then the rest (07 R195). -/
def choiceOrder (s : State) (above : Request → Request → Bool) (owner : Option Request) (v : List Request) : List Request :=
  let urg := v.filter (fun q => (chan s q.ch).cls == .urgent)
  let rest := v.filter (fun q => (chan s q.ch).cls != .urgent)
  let first := fun (l : List Request) => (match owner with | some o => if l.contains o then [o] else [] | none => []) ++
    sortBy above (l.filter (fun q => some q != owner))
  first urg ++ first rest

/-- The holder's channel is URGENT. -/
def holderUrgent (s : State) (p : Port) : Bool :=
  match p.holder with
  | some (.mover m) => match (mover s m.toNat).ch with
    | some ch => (chan s ch).cls == .urgent
    | none => false
  | _ => false

/-- The holder after the decision, and the request that presents in the next port cycle (07 R195, R196); a holder whose PUTI
follows its burst keeps the grant without a request, and loses it to an URGENT one only if it is not URGENT itself (05 R139, 07 R199). -/
def decidePort (s : State) (n : Nat) (p : Port) (v : List Request) : Option Requester × Option Request :=
  let t := nextCycle s p
  let above := bgAbove s p t
  let order := choiceOrder s above (pegOwner s (pegAt s n t) above v) v
  let held : Option Request := match p.holder with
    | some h => v.find? (fun q => q.who == h)
    | none => none
  let chosen : Option Request := match held with
    | some q =>
      if (chan s q.ch).cls = Cls.urgent then some q
      else match bestBy above (v.filter (fun q => (chan s q.ch).cls == Cls.urgent)) with
        | some u => some u
        | none => some q
    | none =>
      if chainAhead s n p then
        if holderUrgent s p then none else bestBy above (v.filter (fun q => (chan s q.ch).cls == Cls.urgent))
      else order.head?
  if held.isNone && chosen.isNone && chainAhead s n p then (p.holder, order.find? (eligible p))
  else match chosen with
  | none => (none, none)
  | some q => (some q.who, if eligible p q then some q else order.find? (eligible p))

/-- The threshold of a class (07 Tables 7.13, 7.14). -/
def threshold (p : Port) (c : Cls) : Nat :=
  match c with
  | .bulk => p.thrBulk.toNat
  | .timed => p.thrTimed.toNat
  | .urgent => p.thrUrgent.toNat

/-- A requester that waits in the present port cycle grows older, and starves when its age becomes its class's threshold
(07 R205, R206). -/
def growOlder (n : Nat) (q : Request) (s : State) : State :=
  let p := port s n
  let a := get 0 p.ages (reqKey q.who)
  let a' := min 65535 (a + 1)
  let s := setPort n { p with ages := put 0 p.ages (reqKey q.who) a' } s
  let c := chan s q.ch
  if a' ≠ a ∧ a' = threshold p c.cls then
    let s := setCause (16 + n) s
    if p.starve.valid then s
    else noteSet (0x1003 + 0x100 * n) 31 (updPort n (fun p => { p with starve := {
      valid := true, ch := BitVec.ofNat 10 q.ch, cls := clsCode c.cls
      mover := match q.who with
        | .mover m => m
        | .fetch _ => 0
      fetch := match q.who with
        | .mover _ => false
        | .fetch _ => true } }) s)
  else s

/-- The requests visible in the present port cycle (07 R193). -/
def visible (s : State) (p : Port) : List Request := p.reqs.filter (fun q => decide (q.time < cycleStart s p))

/-- The decision as the port keeps it. A winner that is withdrawn in this ccyc stays among the withdrawn: the next port cycle is
dead, and its grant ends (07 R197, R199). Under a freeze nothing is decided (17 R401). -/
def keepDecision (d : Option Requester × Option Request) (frozen : Bool) (t : Nat) (p : Port) : Port :=
  if frozen then { p with decidedAt := some t }
  else match d.2 with
    | some q =>
      if q.gone then { p with holder := d.1, decidedAt := some t, grant := none }
      else { p with holder := d.1, decidedAt := some t, grant := some q, reqs := p.reqs.filter (fun x => x != q) }
    | none => { p with holder := d.1, decidedAt := some t, grant := none }

/-- ARBITER_DECISION (07 R195): once in a port cycle, which the waiting requesters grow older by (07 R205), under a freeze too.
DESIGN CHOICE: of two that starve in one port cycle, PORT_STARVE records the one whose request was registered first (log entry
46). -/
def execArbiterDecision (n : PortNo) (s : State) : Host.Outcome State Fault Refusal :=
  let p := port s n.toNat
  .next (if !coreOn s || !p.en || p.decidedAt == some (cycleStart s p) then s
  else
    let v := visible s p
    let s := setPort n.toNat (keepDecision (decidePort s n.toNat p v) (s.mon.frzArb.getLsbD n.toNat) (cycleStart s p) p) s
    (v.filter (fun q => some q.who != p.presents)).foldl (fun s q => growOlder n.toNat q s) s)

/-! ### The port cycle (07 R193, R205) -/

/-- The credits of a new port cycle (02 R56). -/
def newCredits (p : Port) : Port :=
  { p with rqCred := nextRq p, wdCred := nextWd p, rqUsed := 0, rqRet := 0, wdUsed := 0, wdRet := 0 }

/-- The M ports present nothing: a self-test of the tests 1 to 3 is running (13 R343). -/
def portsSilent (s : State) : Bool := selfTesting s

/-- A port cycle of the port begins in the present ccyc (01 R25). -/
def cycleBegins (s : State) (n : Nat) : Bool := (port s n).en && (!(port s n).ratio || coreCycle s % 2 == 0)

/-- The credits of the port cycles that begin in the present ccyc. -/
def beginCredits (s : State) : State :=
  portRange.foldl (fun s n => if cycleBegins s n then updPort n newCredits s else s) s

/-- A port cycle of a port begins, its credits counted: withdrawn requests are gone, the owed beat and the granted request are presented. A
frozen arbiter presents no new request (17 R401). -/
def beginCycle (n : Nat) (s : State) : State :=
  let p := port s n
  let live := p.reqs.filter (fun q => !q.gone)
  let gone := p.reqs.filter (·.gone)
  let p := { p with
    reqs := live, rqOut := none, wdOut := none, presents := none, freedR := 0, freedW := 0
    holder := match p.holder with
      | some h => if gone.any (fun q => q.who == h) then none else some h
      | none => none
    ages := p.ages.filter (fun e => (live ++ p.grant.toList).any (fun q => reqKey q.who == e.1) && !gone.any (fun q => reqKey q.who == e.1)) }
  let s := setPort n p s
  let s := match p.burst with
    | some b => match slotOf s b.ch b.tag with
      | some sl => sendBeat n b.ch b.next sl s
      | none => s
    | none => s
  match p.grant with
  | none => s
  | some q =>
    if s.mon.frzArb.getLsbD n || portsSilent s then updPort n (fun p => { p with grant := none, reqs := q :: p.reqs }) s
    else
      let s := updPort n (fun p => { p with grant := none, ages := put 0 p.ages (reqKey q.who) 0 }) s
      if q.write then presentWrite n q s else presentRead n q s

/-- The port cycles that begin in the present ccyc. -/
def beginCycles (s : State) : State :=
  portRange.foldl (fun s n => if cycleBegins s n then beginCycle n s else s) s

end Sys2Proof.Machine
end

