-- ==== Sys2Proof/Machine/Lines.lean ====
section
/-! DEFINITION. Request lines (03 R66-R75), events and EVT_OUT lines (03 R76-R80), and the instants and deadlines of WAITs
(05 R147, R149). -/

namespace Sys2Proof.Machine

/-! ### Request lines -/

/-- The settings of a line in force (03 Table 3.1; 15 Table 15.9). -/
def linePol (w : Word) : Bool := bit w 26
/-- See `linePol`. -/
def lineAsync (w : Word) : Bool := bit w 27

/-- REQ_EDGE: the level of a line in the present ccyc, and from then on (03 R67). -/
def execReqEdge (n : LineNo) (level : Bool) (s : State) : Host.Outcome State Fault Refusal :=
  .next (setLine n.toNat { line s n.toNat with pin := level } s)

/-- The level that a line's detector samples in the present ccyc, after polarity: the line itself, or the output of its
synchronizer (03 R67, R69). -/
def lineLevel (w : Word) (l : ReqLine) : Bool := xor (if lineAsync w then l.s2 else l.pin) (linePol w)

/-- The detector is loaded in the present ccyc, without counting (03 R69). -/
def lineLoads (s : State) (w : Word) (l : ReqLine) : Bool :=
  l.loadAt == some s.clk.now || (lineAsync w && decide (s.clk.now < s.loadTill))

/-- The detector of line `n` detects an edge in the present ccyc: the line has an owner and changes from inactive to active
(03 R66, R68). -/
def edgeSeen (s : State) (n : Nat) : Bool :=
  let w := get (0 : Word) s.routes.req n
  let l := line s n
  (lineOwner s n).isSome && lineLevel w l && !l.det && !lineLoads s w l

/-- A ccyc ends for a line: the detector and the stages of the synchronizer take what they sampled (03 R69). -/
def clockLine (w : Word) (l : ReqLine) : ReqLine := { l with det := lineLevel w l, s1 := l.pin, s2 := l.s1, use := .none }

/-- An edge is added to the counter of a line, or finds it at 15 (03 R70, R72). -/
def countEdge (n : Nat) (s : State) : State :=
  let l := line s n
  if l.cnt ≠ 15 then setLine n { l with cnt := l.cnt + 1, use := .counted } s
  else setLine n { l with use := if l.ovf then .lost else .over } s

/-- An edge detected in the ccyc before is handled (03 R70): it goes to an owner that waits on the line, or is counted. -/
def handleEdge (s : State) (n : Nat) : State :=
  match lineOwner s n with
  | none => s
  | some owner =>
    let c := chan s owner
    if c.st = .waiting ∧ c.waitOn = .line ∧ c.waitArg.toNat = n ∧ ¬ stopping c then setLine n { line s n with use := .wake } s
    else countEdge n s

/-- The lines that the routes or the line table mention. -/
def knownLines (s : State) : List Nat := (s.routes.req.map (·.1) ++ s.lines.map (·.1)).eraseDups

/-- The lines on which an edge is detected in the present ccyc. -/
def edgesNow (s : State) : List Nat := (knownLines s).filter (edgeSeen s)

/-- A ccyc ends for every line. -/
def clockLines (s : State) : State :=
  (knownLines s).foldl (fun s n => setLine n (clockLine (get 0 s.routes.req n) (line s n)) s) s

/-- The edge given to the owner of line `n` when the ccyc began: the owner becomes READY if it still waits on the line, else the
counter holds the edge (03 R70; 04 R99). -/
def endWake (n : Nat) (s : State) : State :=
  match lineOwner s n with
  | none => s
  | some owner =>
    let c := chan s owner
    if c.st = .waiting ∧ c.waitOn = .line ∧ c.waitArg.toNat = n ∧ ¬ stopping c then completeWait owner s else countEdge n s

/-- An edge lost at count 15 sets the overflow flag of its line and REQ_OVF (03 R72). -/
def endOver (n : Nat) (s : State) : State :=
  match (line s n).use with
  | .over => setCause 24 (noteSet (0x440 + n / 32) (n % 32) (setLine n { line s n with ovf := true } s))
  | _ => s

/-- The lines whose edge of the present ccyc has this use. -/
def linesUsed (s : State) (u : EdgeUse) : List Nat := keysWhere s.lines (fun _ l => l.use == u)

/-- What the edges handled in the present ccyc leave when it ends (03 R70-R73). -/
def endLines (s : State) : State :=
  let s := (linesUsed s .wake).foldl (fun s n => endWake n s) s
  (linesUsed s .over).foldl (fun s n => endOver n s) s

/-- A line gains an owner or new settings: its detector is loaded with the present level under them (03 R69). -/
def loadDetector (s : State) (w : Word) (l : ReqLine) : ReqLine := { l with det := lineLevel w l, loadAt := some s.clk.now }

/-- CORE leaves reset, or DOZE ends: every detector is loaded, an asynchronous line's for 2 ccyc more (03 R69, R75). -/
def loadAllDetectors (s : State) : State :=
  let at' := max s.clk.now s.clk.coreBase
  { (knownLines s).foldl (fun s n =>
      setLine n { loadDetector s (get 0 s.routes.req n) (line s n) with loadAt := some at', use := .none } s) s with
    loadTill := at' + 3 }

/-! ### Fields changed against R305 -/

/-- A word whose fields (the masks `ms`) each hold the old value or the new one; which, is a free value (11 R305). -/
def mixWord {n : Nat} (ms : List (BitVec n)) (k : Nat) (old new : BitVec n) : BitVec n :=
  if old = new then new
  else ms.zipIdx.foldl (fun v m => v ||| ((if Config.freeBool (k + m.2) then old else new) &&& m.1)) 0

/-- The same for a table. -/
def mixTable {n : Nat} (ms : List (BitVec n)) (k : Nat) (old new : Table (BitVec n)) : Table (BitVec n) :=
  if old = new then new
  else tableOf 0 (((old.map (·.1)) ++ (new.map (·.1))).map (fun i => (i, mixWord ms (k + 16 * i) (get 0 old i) (get 0 new i))))

/-- Advance the counter past the values that a commit may have used. -/
def takeMany (s : State) : State := { s with free := s.free + 1048576 }

/-- The route shadows as at the end of the ccyc before (15 R385). -/
def oldShadow (s : State) : Routes := s.shadowOld.getD s.shadow

/-- The route shadows as an armed commit applies them. -/
def armedRoutes (s : State) : Routes :=
  let k := s.com.key
  { req := mixTable [0x80000000, 0x08000000, 0x04000000, 0x03FF0000] k s.com.snapR.req (oldShadow s).req
    evt := mixTable [0x7E000000, 0x01FF0000, 0x00002000, 0x00001000] (k + 131072) s.com.snapR.evt (oldShadow s).evt
    glob := mixTable [0x80000000, 0x01FF0000] (k + 262144) s.com.snapR.glob (oldShadow s).glob }

/-- COMMIT_SEL and COMMIT_GATES as applied (11 R303, R305). -/
def armedSel (s : State) : BitVec 10 := mixWord [0x200, 0x100, 0x0FF] (s.com.key + 655360) s.com.selL s.com.sel
/-- See `armedSel`. -/
def armedGates (s : State) : BitVec 128 :=
  mixWord ((List.range 4).map (fun k => BitVec.ofNat 128 (0xFFFFFFFF * 2 ^ (32 * k)))) (s.com.key + 655376) s.com.gatesL s.com.gates

/-- The routes that an event passed to the guyline in the present ccyc uses: those in force, but from the first ccyc of tick T on those of
an armed commit, which COMMIT_APPLY brings into force in the same ccyc (11 Table 11.6, R305). DESIGN CHOICE: an event raised in the ccyc
before a ROUTE_UPDATE commit goes by the routes of before that commit, which stand here until the commit (log entry 39). -/
def routesNow (s : State) : Routes :=
  if s.com.armed && !s.com.main && decide (s.com.t.toNat ≤ s.clk.ridge.toNat) && bit (armedSel s) 9 then armedRoutes s else s.routes

/-! ### Ridge time -/

/-- Ridge time at a TICK edge (11 R277, R291; 13 R340, SET_TIME): the step of a SYNC, or one tick on with the slew's
correction, which is then made; a time set by SET_TIME replaces it once due. -/
def tickRidge (c : Clock) : Clock :=
  let next := match c.stepTo with
    | some v => { c with ridge := v, stepTo := none, adj := 0 }
    | none => { c with ridge := c.ridge + 1 + BitVec.ofInt 64 c.adj, slewRem := c.slewRem - c.adj, adj := 0 }
  match c.setTime with
  | some (due, v) => if due ≤ c.now then { next with ridge := v, setTime := none } else next
  | none => next

/-- Ridge time in the next ccyc. -/
def nextRidge (s : State) : BitVec 64 :=
  if (s.clk.now + 1) % 2 = 0 then (tickRidge { s.clk with now := s.clk.now + 1 }).ridge else s.clk.ridge

/-! ### Events -/

/-- The routes of the next ccyc, in which the events raised in the present one are handled: those in force, but from the first ccyc of
tick T on those of an armed commit (11 Table 11.6). DESIGN CHOICE: a ROUTE_UPDATE commit of the next ccyc does not change them: an event
raised in the ccyc before it takes the old routes (log entry 39). -/
def routesNext (s : State) : Routes :=
  if s.com.armed && !s.com.main && decide (s.com.t.toNat ≤ (nextRidge s).toNat) && bit (armedSel s) 9 then
    armedRoutes { s with shadowOld := none }
  else s.routes

/-- EVT_SW (03 Table 3.9) takes effect. -/
def effEvtSw (event : Event) (s : State) : State := if coreOn s then raiseEvent event s else s

/-- A host write of EVT_SW. -/
def execEvtSw (event : Event) (s : State) : Host.Outcome State Fault Refusal :=
  .next (hostAccess (.evtSw event) (effEvtSw event) s)

/-- A pulse raised in the present ccyc joins line `m` (03 R79): it goes high in the next ccyc, or is queued, or lost. -/
def joinLine (m e : Nat) (s : State) : State :=
  let l := get {} s.ev.lines m
  let put' := fun (l : EvtLine) => { s with ev := { s.ev with lines := put {} s.ev.lines m l } }
  if l.queue = [] ∧ (∀ t ∈ l.last, t < s.clk.now) then put' { l with last := some (s.clk.now + 1) }
  else if l.queue.length < 3 then put' { l with queue := l.queue ++ [e] }
  else setCause 25 (noteSet (0x450 + m / 32) (m % 32) { s with ev := { s.ev with ovf := setBit s.ev.ovf m true } })

/-- EVT_PULSE_OUT (03 R79): the oldest queued pulse goes high once the line has been low for a ccyc. -/
def execEvtPulseOut (m : LineNo) (s : State) : Host.Outcome State Fault Refusal :=
  let l := get {} s.ev.lines m.toNat
  .next (match l.queue with
  | [] => s
  | _ :: rest =>
    if coreOn s ∧ (∀ t ∈ l.last, t + 2 ≤ s.clk.now) then
      { s with ev := { s.ev with lines := put {} s.ev.lines m.toNat { last := some s.clk.now, queue := rest } } }
    else s)

/-- A logical event joins the line of its route (15 Table 15.10; 03 R79). -/
def placeEvent (r : Routes) (e : Nat) (s : State) : State :=
  let w := get (0 : Word) r.evt e
  if bit w 12 then joinLine (fld w 16 9 : BitVec 9).toNat e s else s

/-- The global events that arrive in the present ccyc join the lines of the input map (03 R80, 15 Table 15.11). -/
def placeGlobals (r : Routes) (mask : BitVec 64) (s : State) : State :=
  (List.range 64).foldl (fun s g =>
    let w := get (0 : Word) r.glob g
    if mask.getLsbD g && bit w 31 then joinLine (fld w 16 9 : BitVec 9).toNat (4096 + g) s else s) s

/-- What is raised in the present ccyc, and what arrives in it from the guyline, takes its place on the EVT_OUT lines as it ends (03 R79,
R80). DESIGN CHOICE: on one line the logical events come before the global ones (log entry 46). -/
def placeEvents (s : State) : State :=
  let r := routesNext s
  placeGlobals r s.ev.gdelivered (s.ev.raised.foldl (fun s e => placeEvent r e s) s)

/-- A logical event with GLOB_EN 1 is passed to the guyline in the ccyc after its raise (03 R80). -/
def passGlobal (r : Routes) (e : Nat) (s : State) : State :=
  let w := get (0 : Word) r.evt e
  if bit w 13 then { s with gl := { s.gl with mask := setBit s.gl.mask (fld w 25 6 : BitVec 6).toNat true } } else s

/-- The deadline of a waiting channel has been reached; DEADLINE then comes before its event (04 R99). -/
def deadlineDue (s : State) (c : Channel) : Bool := c.dlArmed && decide (c.dl.toNat ≤ s.clk.ridge.toNat)

/-- The channels WAITING on an event delivered in the present ccyc become READY (03 R78, R80). -/
def wakeWaiters (on : WaitOn) (hit : Nat → Bool) (s : State) : State :=
  (chansWhere s (fun _ c => c.st == .waiting && c.waitOn == on && !stopping c && hit c.waitArg.toNat && !deadlineDue s c)).foldl
    (fun s ch => completeWait ch s) s

/-- A fenced wait whose responses are all in completes; a SIGNAL.F raises its event (05 R152). -/
def completeFenced (ch : Nat) (s : State) : State :=
  let s' := match obtain s (chan s ch) with
    | .word w => match decodeYabex w with
      | .ok (.signalF e) => raiseBy ch e s
      | _ => s
    | _ => s
  completeWait ch s'

/-- A ccyc begins in which the fenced waits whose responses are all in complete (05 R152). -/
def markFences (s : State) : State :=
  (chansWhere s (fun ch c => c.st == .waiting && c.waitOn == .fenced && wtagCount s ch == 0)).foldl
    (fun s ch => updChan ch (fun c => { c with met := true }) s) s

/-- The fenced waits that complete in this ccyc. -/
def completeFences (s : State) : State :=
  (chansWhere s (fun _ c => c.st == .waiting && c.waitOn == .fenced && c.met && !stopping c)).foldl
    (fun s ch => completeFenced ch s) s

/-- The progress that conditions bring to waiting channels in the present ccyc, after every other cause of it (04 R99). -/
def endWaits (s : State) : State :=
  completeFences (wakeWaiters .gevent (fun g => s.ev.gdelivered.getLsbD g)
    (wakeWaiters .event (fun e => s.ev.delivered.contains e) (endLines s)))

/-- What the present ccyc brings its channels when it ends, in the order of 04 R99: the halts of the faults detected in it, then the
progress of waiting channels; then nothing of it can be taken back. -/
def endChans (s : State) : State := sealCcyc (endWaits (haltsDue (fencesMet s)))

/-- What the present ccyc brings CORE when it ends: its channels, then the EVT_OUT lines. -/
def endCore (s : State) : State := placeEvents (endChans s)

/-- The aborted channels whose last tag has returned enter IDLE (09 R238). -/
def finishAborts (s : State) : State :=
  (chansWhere s (fun ch c => c.st == .aborting && noTags s ch)).foldl (fun s ch => endAbort ch s) s

/-- What the events raised in the ccyc before do in this one: they are delivered, and passed to the guyline (03 R78, R80). -/
def deliverEvents (s : State) : State :=
  let raised := s.ev.raised
  let r := routesNow s
  let s := { s with ev := { s.ev with raised := [], direct := [], delivered := raised, gdelivered := 0 } }
  raised.foldl (fun s e => passGlobal r e s) s

/-! ### Instants and deadlines -/

/-- INSTANT_REACHED (05 R147): ridge time has reached the instant of a waiting channel. -/
def execInstantReached (ch : Chan) (s : State) : Host.Outcome State Fault Refusal :=
  let c := chan s ch.toNat
  .next (if coreOn s ∧ c.st = .waiting ∧ c.waitOn = .instant ∧ ¬ stopping c ∧ c.dl.toNat ≤ s.clk.ridge.toNat then
    completeWait ch.toNat (noteBefore ch.toNat s)
  else s)

/-- The STALE event of the WAIT at CH_PC, if it has one (05 R149). -/
def staleOf (s : State) (c : Channel) : Option Event :=
  match obtain s c with
  | .word w => match decodeYabex w with
    | .ok (.wait _ _ true _ _ stale _) => some stale
    | _ => none
  | _ => none

/-- The channel waits in a WAIT on a line, an event or a global event, and no edge that is handled in the present ccyc and belongs to it
meets it (05 R149, 03 R73). -/
def condOpen (s : State) (ch : Nat) (c : Channel) : Bool :=
  c.st == .waiting &&
  (match c.waitOn with
   | .line => (line s c.waitArg.toNat).use != .wake || lineOwner s c.waitArg.toNat != some ch
   | .event => true
   | .gevent => true
   | _ => false)

/-- The deadline of a WAITING channel is reached while its condition is not met: it halts with DEADLINE and raises the stale event
(05 R149). -/
def reachDeadline (ch : Nat) (s : State) : State :=
  let c := chan s ch
  if condOpen s ch c ∧ deadlineDue s c ∧ (¬ stopping c ∨ c.faultAt = s.clk.now) then
    deadlineHalt ch (staleOf s c).isSome ((staleOf s c).getD 0) s
  else s

/-- DEADLINE. -/
def execDeadline (ch : Chan) (s : State) : Host.Outcome State Fault Refusal :=
  .next (if coreOn s then reachDeadline ch.toNat s else s)

end Sys2Proof.Machine
end

