-- ==== Sys2Proof/Machine/Stops.lean ====
section
/-! DEFINITION. Starting and stopping a channel: CH_CTL.EN (04 R97), HALT_ENTRY (09 R226) with the errors that reads of the
on-block memories find (06 R178), PARK_ENTRY (09 R241). -/

namespace Sys2Proof.Machine

/-- CH_START: in IDLE, on an assigned channel, with no soft reset in progress (04 R97). -/
def effChStart (ch : Chan) (s : State) : State := if coreOn s then enableChannel ch.toNat s else s

/-- A host write of 1 to CH_CTL.EN. -/
def execChStart (ch : Chan) (s : State) : Host.Outcome State Fault Refusal :=
  .next (hostAccess (.chStart ch) (effChStart ch) s)

/-- The channel was IDLE when the present ccyc began, and a late error has halted it since (09 Table 9.6). -/
def idleBefore (s : State) (ch : Nat) : Bool := (earlier s ch).any (fun b => b.st == .idle)

/-- CH_ABORT: no effect in IDLE and ABORTING (04 R97); a fault, a STOP and other progress of the same ccyc come after it (04 R99). -/
def effChAbort (ch : Chan) (s : State) : State :=
  let s' := unstop ch.toNat (yieldProgress ch.toNat s)
  let st := (chan s' ch.toNat).st
  if coreOn s ∧ st ≠ .idle ∧ st ≠ .aborting ∧ ¬ idleBefore s ch.toNat then abort ch.toNat (settle ch.toNat s') else s

/-- A host write of 0 to CH_CTL.EN. -/
def execChAbort (ch : Chan) (s : State) : Host.Outcome State Fault Refusal :=
  .next (hostAccess (.chAbort ch) (effChAbort ch) s)

/-- The word at CH_PC is a PUTI with a data word (05 R136). -/
def dataAt (s : State) (c : Channel) : Bool :=
  match handWord s c with
  | some w => match decodeYabex w with
    | .ok (.puti _ true _ _) => true
    | _ => false
  | none => false

/-- The program-store word at CH_PC, or the data word of its PUTI, is uncorrectable, and the channel comes to execute it: FETCH, with
ECC_MEM_UE and a MEM_UE entry (04 R106, 05 R136; 03 Table 3.10, 09 Table 9.10). A MOVE or PUTI under way has its words in hand. -/
def badStoreWord (ch : Nat) (data : Bool) (s : State) : State :=
  let c := chan s ch
  let underWay := c.inMove && c.run.isSome && !c.recheck
  if mayExecute s ch ∧ ¬ c.pc.sys ∧ ¬ underWay ∧ (data → dataAt s c) then
    let a := if data then (c.pc.plus 8).addr else c.pc.addr
    haltNow ch (fetchFault s false a 1) (setCause 5 (logFault { kind := 8, detail := 3, addr := a } s))
  else s

/-- Free words of word `w` of a context (04 R94), before the halt latches. DESIGN CHOICE: of word 1, STATE is the halt's, and WAIT_ON,
WAIT_ARG, PARK_SRC, PARK_PEND, MOVER and HALT_PEND go to 0 with it, as in every halt; word 3, CH_TAGS, goes on counting the tags that
the ports hold (log entry 14). -/
def freeBefore (w : Nat) (v : Word) (c : Channel) : Channel :=
  match w with
  | 0 => { c with en := bit v 0 }
  | 1 => { c with dlArmed := bit v 11, parkSrc := bit v 10, inMove := bit v 9 }
  | 2 => { c with
      homeDom := fld v 16 7, autoResume := bit v 15, pin := bit v 14, mid := fld v 8 6, assigned := bit v 6, priv := bit v 5,
      prio := fld v 2 3, prioSh := fld v 2 3, cls := match (fld v 0 2 : BitVec 2).toNat with
        | 0 => .bulk
        | 1 => .timed
        | _ => .urgent }
  | 4 => { c with entry := { c.entry with addr := (c.entry.addr >>> 32 <<< 32) ||| ((v >>> 3 <<< 3).setWidth 48) } }
  | 5 => { c with entry := { sys := bit v 31, addr := (fld v 0 16 : BitVec 16) ++ (fld c.entry.addr 0 32 : BitVec 32) } }
  | 6 => { c with pc := { c.pc with addr := (c.pc.addr >>> 32 <<< 32) ||| ((v >>> 3 <<< 3).setWidth 48) } }
  | 7 => { c with pc := { sys := bit v 31, addr := (fld v 0 16 : BitVec 16) ++ (fld c.pc.addr 0 32 : BitVec 32) } }
  | 20 => { c with moveRd := fld v 0 21 }
  | 21 => { c with moveWr := fld v 0 21 }
  | 22 => { c with watchVal := v }
  | 23 => { c with watchCnt := fld v 0 16 }
  | 24 => { c with dl := (fld c.dl 32 32 : BitVec 32) ++ v }
  | 25 => { c with dl := v ++ (fld c.dl 0 32 : BitVec 32) }
  | _ =>
    if 8 ≤ w ∧ w < 16 then
      let j := (w - 8) / 2
      let a := reg4 c.a j
      { c with a := setReg4 c.a j (if w % 2 = 0 then (fld a 32 16 : BitVec 16) ++ v
                                   else (fld v 0 16 : BitVec 16) ++ (fld a 0 32 : BitVec 32)) }
    else if 16 ≤ w ∧ w < 20 then { c with l := setReg4 c.l (w - 16) v }
    else c

/-- The fields of the fault latches after the halt. -/
def freeAfter (w : Nat) (v : Word) (c : Channel) : Channel :=
  match w with
  | 26 => { c with faultAddr := (fld c.faultAddr 32 16 : BitVec 16) ++ v }
  | 27 => { c with faultAddr := (fld v 0 16 : BitVec 16) ++ (fld c.faultAddr 0 32 : BitVec 32) }
  | 28 => { c with faultInfo := { c.faultInfo with port := fld v 16 3, detail := fld v 8 4, dir := fld v 4 2 } }
  | 30 => { c with faultPc := { c.faultPc with addr := (c.faultPc.addr >>> 32 <<< 32) ||| ((v >>> 3 <<< 3).setWidth 48) } }
  | 31 => { c with faultPc := { sys := bit v 31, addr := (fld v 0 16 : BitVec 16) ++ (fld c.faultPc.addr 0 32 : BitVec 32) } }
  | _ => c

/-- An uncorrectable word of a channel's context (04 R94, 09 Table 9.10): ECC_MEM_UE, a MEM_UE entry, and the halt with ECC,
whose detail, address, direction and port no rule gives. DESIGN CHOICE: an IDLE channel, an unassigned one among them, halts too, though
Table 4.9 gives it no such way and 04 R113 keeps an unassigned one IDLE (log entry 14). -/
def badContextWord (ch : Nat) (w : BitVec 5) (s : State) : State :=
  let k := s.free
  let v := Config.freeWord k
  let r : FaultRec := { cause := .ecc, addr := Config.freeAddr k, dir := Config.freeDir k, port := Config.freePort k,
                        detail := Config.freeDetail k }
  let s := setCause 5 (logFault { kind := 8, detail := 2, ch := BitVec.ofNat 10 ch,
                                  addr := BitVec.ofNat 48 (128 * ch + 4 * w.toNat) } (takeFree s))
  let s := updChan ch (freeBefore w.toNat v) (settle ch (unstop ch s))
  let s := if (chan s ch).st = .aborting then s else haltNow ch r s
  updChan ch (freeAfter w.toNat v) s

/-- A park that is due: before the progress that the ccyc has brought a WAITING channel, and after its deadline (04 R99). -/
def parkComes (ch : Nat) (s : State) : State :=
  let s := if (chan s ch).st = .ready then yieldProgress ch s else s
  let c := chan s ch
  if condOpen s ch c && deadlineDue s c then reachDeadline ch s else enterPark ch c.parkSrcNext (settle ch s)

/-- PARK_ENTRY (09 R241): in the ccyc after the park and after the last owed beat. -/
def execParkEntry (ch : Chan) (s : State) : Host.Outcome State Fault Refusal :=
  .next (if coreOn s && parkDue s ch.toNat (chan s ch.toNat) then parkComes ch.toNat s else s)

/-- Leave PARKED (04 R100): the MOVE continues after its checks, a WAIT is evaluated again with its deadline kept. DESIGN CHOICE: PARK_SRC,
which Table 4.3 defines in PARKED only, goes back to 0 (log entry 46). -/
def unpark (ch : Nat) (s : State) : State :=
  goReady ch (updChan ch (fun c => { c with recheck := true, parkSrc := false, wakeNext := false, leftAt := some s.clk.now }) s)

/-- Ask a RUNNING channel to park at the next beat boundary (09 R241). One that its retirement has just brought to a fault is
HALTED instead (04 R99). -/
def askPark (ch : Nat) (src : Bool) (s : State) : State :=
  let s := settle ch s
  if (chan s ch).st = .halted then s
  else
    let s := withdraw ch s
    updChan ch (fun c => { c with
      parkPend := true, parkAt := s.clk.now, parkSrcNext := if c.parkPend then c.parkSrcNext && src else src }) s

end Sys2Proof.Machine
end

