-- ==== Sys2Proof/Machine/Domains.lean ====
section
/-! DEFINITION. The domain handshakes and the quiesce (03 R86-R88; 14 R363-R369), and VMON_LOW (03 R84; 14 R370, R371). -/

namespace Sys2Proof.Machine

/-- Answer a PD_REQ with PD_ACK, or with PD_NACK: two TICK edges later (03 R87, 01 R411). -/
def wantAck (n : Nat) (s : State) : State := { s with pd := { s.pd with ackWant := setBit s.pd.ackWant n true } }

/-- Close domain `n` (14 R364). -/
def closeDomain (n : Nat) (s : State) : State := { s with pd := { s.pd with closed := setBit s.pd.closed n true } }

/-- Refuse PD_REQ[n] for PIN channel `ch`: PD_NACK, its record unless one is held, and the cause (14 R364, Table 14.12). -/
def refuse (n ch : Nat) (s : State) : State :=
  let p := { s.pd with nackWant := setBit s.pd.nackWant n true }
  setCause 51 { (noteSet 0x154 31 s) with pd :=
    if p.nackValid then p else { p with nackValid := true, nackDom := BitVec.ofNat 7 n, nackCh := BitVec.ofNat 10 ch } }

/-- The channels as a quiesce finds them: before their STOP and other progress of the present ccyc (04 R99). -/
def unstopAll (s : State) : State :=
  let s := (keysWhere s.before (fun _ b => b.isSome)).foldl (fun s ch => yieldRaise ch (yieldProgress ch s)) s
  (chansWhere s (fun _ c => c.st == .idle && c.stopAt == some s.clk.now)).foldl (fun s ch => unstop ch s) s

/-- The channels that a quiesce of domain `n` concerns (14 R364). -/
def quiesceSet (s : State) (n : Nat) : List Nat :=
  chansWhere s (fun ch c => (c.st == .ready || c.st == .running || c.st == .waiting) && touches s ch n)

/-- Park one channel for a quiesce; one about to halt is left to its halt, and one whose deadline is reached halts (04 R99, 14 R364). -/
def quiesceChannel (ch : Nat) (s : State) : State :=
  let s := yieldRaise ch (yieldProgress ch s)
  let c := chan s ch
  match c.st with
  | .ready => enterPark ch true s
  | .waiting =>
    if stopping c then s
    else if c.waitAt = some s.clk.now then askPark ch true s
    else if condOpen s ch c && deadlineDue s c then reachDeadline ch s
    else enterPark ch true s
  | .running => if stopping c then s else askPark ch true s
  | _ => s

/-- The sequence of 14 R364 while CORE runs. -/
def quiesce (n : Nat) (s : State) : State :=
  let a := quiesceSet (unstopAll s) n
  match a.find? (fun ch => (chan s ch).pin) with
  | some ch => refuse n ch s
  | none =>
    let s := closeDomain n { s with pd := { s.pd with quiesces := s.pd.quiesces ++ [{ dom := n, chans := a }] } }
    a.foldl (fun s ch => quiesceChannel ch (unstop ch s)) s

/-- AO samples PD_REQ[n] as 1 (14 R364, R369). -/
def reqRises (n : Nat) (s : State) : State :=
  let s := { s with pd := { s.pd with req := setBit s.pd.req n true } }
  if coreUp s then quiesce n s
  else if s.pwr.st = .doze ∨ s.pwr.dozeW.isSome then
    match get none s.pwr.dozePins n with
    | some ch => refuse n ch s
    | none => wantAck n (closeDomain n s)
  else wantAck n (closeDomain n s)

/-- QUIESCE_DRAINED (14 R364): every channel concerned has stopped and no tag lies in the domain. -/
def execQuiesceDrained (dom : Dom) (s : State) : Host.Outcome State Fault Refusal :=
  let n := dom.toNat
  .next (match s.pd.quiesces.find? (fun q => q.dom == n) with
  | none => s
  | some q =>
    if q.chans.all (fun ch => stopped (chan s ch)) ∧ ¬ tagsIn s none n then
      wantAck n { s with pd := { s.pd with quiesces := s.pd.quiesces.filter (fun q => q.dom != n) } }
    else s)

/-- A channel touches a domain that is still closed. -/
def touchesClosed (s : State) (ch : Nat) : Bool :=
  (List.range 128).any (fun n => s.pd.closed.getLsbD n && touches s ch n)

/-- The channels that resume by themselves when a domain opens (14 R368). -/
def autoResumes (s : State) (ch : Nat) (c : Channel) : Bool :=
  c.st == .parked && c.parkSrc && c.autoResume && !touchesClosed s ch

/-- AO samples PD_REQ[n] as 0 (14 R368): the domain opens; an answer not yet driven is dropped, one driven falls; the channels that an
abandoned quiesce of this domain still parks are marked. -/
def reqFalls (n : Nat) (s : State) : State :=
  let p := s.pd
  let mine := (p.quiesces.filter (fun q => q.dom == n)).flatMap (·.chans)
  let s := { s with pwr := { s.pwr with dozeClosed := setBit s.pwr.dozeClosed n false } }
  let s := { s with pd := { p with
    req := setBit p.req n false, closed := setBit p.closed n false
    ackWant := setBit p.ackWant n false, nackWant := setBit p.nackWant n false
    ackD1 := setBit p.ackD1 n (p.ackD1.getLsbD n && p.ackOut.getLsbD n)
    nackD1 := setBit p.nackD1 n (p.nackD1.getLsbD n && p.nackOut.getLsbD n)
    quiesces := p.quiesces.filter (fun q => q.dom != n) } }
  let s := (chansWhere s (fun ch c => mine.contains ch && c.st == .running && c.parkPend && c.parkSrcNext)).foldl
    (fun s ch => updChan ch (fun c => { c with wakeNext := true }) s) s
  (chansWhere s (autoResumes s)).foldl (fun s ch => unpark ch s) s

/-- AO samples PD_REQ[n] at a TICK edge (03 R86). -/
def samplePd (n : Nat) (s : State) : State :=
  if s.pd.pin.getLsbD n = s.pd.req.getLsbD n then s else if s.pd.pin.getLsbD n then reqRises n s else reqFalls n s

/-- AO samples every PD_REQ input. -/
def samplePds (s : State) : State :=
  if s.pd.pin = s.pd.req then s else (List.range 128).foldl (fun s n => samplePd n s) s

/-- PD_REQ[n] takes a level: AO samples it at the TICK edge that begins the present ccyc, or at the next one; with AO off only the
input changes (03 R86). -/
def drivePd (n : Nat) (level : Bool) (s : State) : State :=
  let s := { s with pd := { s.pd with pin := setBit s.pd.pin n level } }
  if s.pwr.st = .off ∨ s.clk.now % 2 = 1 then s else samplePd n s

/-- PD_REQ_RISE. -/
def execPdReqRise (dom : Dom) (s : State) : Host.Outcome State Fault Refusal := .next (drivePd dom.toNat true s)

/-- PD_REQ_FALL. -/
def execPdReqFall (dom : Dom) (s : State) : Host.Outcome State Fault Refusal := .next (drivePd dom.toNat false s)

/-- The channels parked by an abandoned quiesce that become READY in the ccyc after (14 R368). -/
def wakeAbandoned (s : State) : State :=
  (chansWhere s (fun _ c => c.wakeNext && c.st == .parked)).foldl (fun s ch =>
    if autoResumes s ch (chan s ch) then unpark ch s else updChan ch (fun c => { c with wakeNext := false }) s) s

/-- The handshake outputs move at a TICK edge (01 R411). -/
def tickHandshakes (s : State) : State :=
  { s with pd := { s.pd with ackOut := s.pd.ackD1, ackD1 := s.pd.ackWant, nackOut := s.pd.nackD1, nackD1 := s.pd.nackWant } }

/-- On leaving reset every domain whose PD_REQ is 1 is closed and answered; PD_ACK keeps the level of its tie-off until the answer is
driven (03 R88). -/
def closeRequested (s : State) : State :=
  { s with pd := { s.pd with
    req := s.pd.pin, closed := s.pd.pin, ackWant := s.pd.pin, ackD1 := s.pd.pin &&& Config.ackTie
    ackOut := s.pd.pin &&& Config.ackTie } }

/-! ### VMON_LOW -/

/-- The synchronized level takes a value (14 R370, R371). As it rises, NV writes stop from the next ccyc on, and a LOAD of the option area
presents nothing more (13 R342); as it falls, no channel is resumed. -/
def setVmon (level : Bool) (s : State) : State :=
  if s.mon.vmon = level then s
  else
    let s := { s with mon := { s.mon with vmon := level } }
    if level then
      setCause 56 { s with cmd := { s.cmd with job := match s.cmd.job with
        | .bootWrite o n p a _ => .bootWrite o n p a true
        | j => j } }
    else s

/-- The synchronizer of VMON_LOW at a TICK edge (03 R84). -/
def sampleVmon (s : State) : State :=
  let s := setVmon s.mon.vmonS1 s
  { s with mon := { s.mon with vmonS1 := s.mon.vmonPin } }

/-- VMON_LOW has been at a level for so long that its synchronizer passes it on: at the TICK edge that begins the present ccyc, or at the
next one (03 R84; log entry 10). With AO off only the input changes. -/
def driveVmon (level : Bool) (s : State) : State :=
  let s := { s with mon := { s.mon with vmonPin := level } }
  if s.pwr.st = .off then s
  else
    let s := { s with mon := { s.mon with vmonS1 := level } }
    if s.clk.now % 2 = 1 then s else setVmon level s

/-- VMON_LOW_ASSERT. -/
def execVmonLowAssert (s : State) : Host.Outcome State Fault Refusal := .next (driveVmon true s)

/-- VMON_LOW_DEASSERT. -/
def execVmonLowDeassert (s : State) : Host.Outcome State Fault Refusal := .next (driveVmon false s)

/-- The first unpresented write into an NV window that a port holds of each channel: port, channel, address. -/
def nvWaiters (s : State) : List (Nat × Nat × Addr) :=
  (portRange.flatMap (fun n => ((port s n).reqs ++ (port s n).grant.toList).filterMap (fun q =>
    if q.write && !q.gone && inNV s q.addr.toNat then some (n, q.ch, q.addr) else none))).foldl
    (fun l w => if l.any (fun x => x.2.1 == w.2.1) then l else l ++ [w]) []

/-- A ccyc begins in which NV writes may not be presented: the channels with such a write stop (14 R370). -/
def stopNv (s : State) : State :=
  if s.mon.nvStop then (nvWaiters s).foldl (fun s q => stopAccess q.2.1 (brownoutFault q.2.2 q.1) s) s else s

end Sys2Proof.Machine
end

