-- ==== Sys2Proof/Machine/Gates.lean ====
section
/-! DEFINITION. The gate tiles and the engine's end of the gate ring (10). -/

namespace Sys2Proof.Machine

/-! ### Rule words -/

/-- Rule word `w` of a set of rules. -/
def ruleWord (r : Table Word) (w : Nat) : Word := get (0 : Word) r w

/-- Rules with word `w` replaced. -/
def putRule (r : Table Word) (w : Nat) (v : Word) : Table Word := put (0 : Word) r w (v &&& ruleMask w)

/-- The address of the 32-B beat that two region words name (Table 10.9). -/
def boundAddr (lo hi : Word) : Nat := (fld hi 0 16 : BitVec 16).toNat * 2 ^ 32 + (fld lo 5 27 : BitVec 27).toNat * 32

/-- Region `k` matches an address (10 R251). -/
def regionMatches (r : Table Word) (a k : Nat) : Bool :=
  bit (ruleWord r (4 * k)) 4 && decide (boundAddr (ruleWord r (4 * k)) (ruleWord r (4 * k + 1)) ≤ a) &&
  decide (a ≤ boundAddr (ruleWord r (4 * k + 2)) (ruleWord r (4 * k + 3)) + 31)

/-- MID set `j` admits a master ID (Table 10.10). -/
def midAdmits (r : Table Word) (j : BitVec 3) (mid : BitVec 6) : Bool :=
  bit (ruleWord r (128 + 2 * j.toNat + mid.toNat / 32)) (mid.toNat % 32)

/-- Domain set `j` admits a domain (Table 10.10). -/
def domAdmits (r : Table Word) (j : BitVec 3) (dom : Dom) : Bool :=
  bit (ruleWord r (144 + 4 * j.toNat + dom.toNat / 32)) (dom.toNat % 32)

/-! ### Judging an access (10 R253, R257) -/

/-- A verdict: the detail of a denial, and the region that decided. -/
structure Verdict where
  deny    : Option (BitVec 4)
  matched : Bool := false
  region  : BitVec 5 := 0
  deriving DecidableEq, Repr

/-- The parity of a request as it must arrive (02 R37). -/
def requestParity (q : GateReq) : BitVec 3 :=
  let g : BitVec 23 := (BitVec.ofBool q.write ++ q.size ++ q.len) ++ (BitVec.ofBool q.priv ++ q.mid ++ q.dom ++ q.cls)
  BitVec.ofBool (oddParity q.tag) ++ BitVec.ofBool (oddParity g) ++ BitVec.ofBool (oddParity q.addr)

/-- The PERM bit for a privilege and direction (Table 10.9). -/
def permBit (q : GateReq) : Nat := (if q.priv then 0 else 2) + (if q.write then 1 else 0)

/-- The judgement of an access whose parity is good. -/
def judge (r : Table Word) (q : GateReq) : Verdict :=
  match (List.range 32).find? (regionMatches r q.addr.toNat) with
  | some k =>
    let w1 := ruleWord r (4 * k + 1)
    let d : Option (BitVec 4) :=
      if !bit (ruleWord r (4 * k)) (permBit q) then some 1
      else if !midAdmits r (fld w1 20 3) q.mid then some 2
      else if !domAdmits r (fld w1 24 3) q.dom then some 3
      else none
    { deny := d, matched := true, region := BitVec.ofNat 5 k }
  | none =>
    let g := ruleWord r 176
    { deny :=
        if !q.priv then some 4
        else if !bit g (if q.write then 1 else 0) then some 5
        else if !midAdmits r (fld g 4 3) q.mid then some 6
        else if !domAdmits r (fld g 8 3) q.dom then some 7
        else none }

/-- The checker's verdict: parity first (10 R257). -/
def verdict (r : Table Word) (q : GateReq) : Verdict :=
  if q.par = requestParity q then judge r q else { deny := some 8 }

/-! ### The checker -/

/-- Report flags, DATA[5:0] of REPORT (Table 10.8). DESIGN CHOICE: bit 0 up are DENY, LOG_FULL, PARITY, DRAINED, HELLO and APPLY_DONE, the
order in which 10 R271 names them, since no rule gives their places (log entry 36). -/
def flagDeny : BitVec 6 := 1
/-- See `flagDeny`. -/
def flagLogFull : BitVec 6 := 2
/-- See `flagDeny`. -/
def flagParity : BitVec 6 := 4
/-- See `flagDeny`. -/
def flagDrained : BitVec 6 := 8
/-- See `flagDeny`. -/
def flagHello : BitVec 6 := 16
/-- See `flagDeny`. -/
def flagApplyDone : BitVec 6 := 32

/-- Count and log a denial or a write-data parity event (10 R270). -/
def logDenial (q : GateReq) (matched : Bool) (region : BitVec 5) (detail : BitVec 4) (flags : BitVec 6) (t : Tile) : Tile :=
  let n := satAdd t.denyCnt 1
  if 4 ≤ t.log.length then
    { t with denyCnt := n, lost := satAdd t.lost 1, reports := t.reports ||| flags ||| flagLogFull }
  else
    { t with
      denyCnt := n, reports := t.reports ||| flags
      log := t.log ++ [{ req := q, matched := matched, region := region, detail := detail, seq := n }] }

/-- DRAINED rises in the TCLK after the first one with EN 0, and is reported (10 R260, R271). -/
def drainTclk (t : Tile) : Tile :=
  if t.en || t.drained then t
  else if t.offTclk then { t with drained := true, reports := t.reports ||| flagDrained }
  else { t with offTclk := true }

/-- A TCLK begins: nothing is presented yet. While U_PORT_EN is 0 the checker holds nothing (02 R60); when it rises, the
credits on D are none and the initial allowance on U is due (02 R59, 10 R250). -/
def beginTclk (up : Bool) (t : Tile) : Tile :=
  let t := drainTclk { t with dReq := none, dBeat := none, uRqCrd := false, uWdCrd := false }
  if !up then { t with
    up := false, rqAllow := 0, wdAllow := 0, dRqCred := 0, dWdCred := 0, input := [], beats := [], writes := [], outq := [], answers := []
    uRead := none, uWrite := none }
  else if t.up then t
  else { t with up := true, rqAllow := 8, wdAllow := 16 }

/-- WD_PAR of a beat (02 R37). -/
def wdParity (b : WdBeat) : Bool := oddParity (b.strb ++ BitVec.ofBool b.last ++ BitVec.ofBool b.poison)

/-- A beat as the checker presents it poisoned: the end of the burst from RQ_LEN (10 R258). -/
def poisoned (fin : Bool) (b : WdBeat) : WdBeat :=
  let b := { b with last := fin, poison := true }
  { b with par := wdParity b }

/-- The next beat of an allowed write is presented on D, and its credit returned on U (10 R249, R250, R258). -/
def passBeat (w : TileWrite) (ws : List TileWrite) (b : WdBeat) (bs : List WdBeat) (t : Tile) : Tile :=
  let fin := w.beat == w.req.len.toNat
  let ok := b.par == wdParity b
  let bad := w.poison || !ok
  let t := { t with
    beats := bs, uWdCrd := true, dWdCred := t.dWdCred - 1
    dBeat := some (if bad then poisoned fin b else b)
    writes := if fin then ws else { w with beat := w.beat + 1, poison := bad } :: ws }
  if ok then t else logDenial w.req w.matched w.region 9 flagParity t

/-- A write burst is under way on D. -/
def inBurst (t : Tile) : Bool :=
  match t.writes with
  | w :: _ => w.deny.isNone && decide (0 < w.beat)
  | [] => false

/-- The owed beat of the burst under way. -/
def presentBeat (t : Tile) : Tile :=
  match t.writes, t.beats with
  | w :: ws, b :: bs => if inBurst t then passBeat w ws b bs t else t
  | _, _ => t

/-- The oldest allowed request is presented on D under the target's credits, a write with its beat 0 on a free write-data
channel (10 R249, R250; 02 R43). -/
def presentRequest (busy : Bool) (t : Tile) : Tile :=
  match t.outq with
  | [] => t
  | q :: rest =>
    let t' := { t with dReq := some q, outq := rest, dRqCred := t.dRqCred - 1 }
    if t.dRqCred = 0 then t
    else if !q.write then t'
    else match t.writes, t.beats with
      | w :: ws, b :: bs =>
        if !busy && w.deny.isNone && decide (q.len.toNat + 1 ≤ t.dWdCred) then passBeat w ws b bs t' else t
      | _, _ => t

/-- What arrives joins the buffers (10 R249). -/
def acceptInput (i : GateIn) (t : Tile) : Tile :=
  { t with input := t.input ++ i.req.toList, beats := t.beats ++ i.beat.toList }

/-- The oldest waiting request is checked, while EN is 1 (10 R249, R253, R255, R257, R260). -/
def checkOldest (t : Tile) : Tile :=
  match t.input with
  | [] => t
  | q :: rest =>
    if !t.en then t
    else
      let v := verdict t.rules q
      let t := { t with input := rest, uRqCrd := true }
      let w : TileWrite := { req := q, deny := v.deny, matched := v.matched, region := v.region }
      match v.deny with
      | none => { t with outq := t.outq ++ [q], writes := if q.write then t.writes ++ [w] else t.writes }
      | some d =>
        let t := logDenial q v.matched v.region d (if d = 8 then flagDeny ||| flagParity else flagDeny) t
        if q.write then { t with writes := t.writes ++ [w] }
        else { t with answers := t.answers ++ [{ write := false, tag := q.tag, detail := d, left := q.len.toNat + 1 }] }

/-- The oldest beat of a denied write is discarded; the last one brings the answer (10 R255). DESIGN CHOICE: in a TCLK that presents a beat
on D none is discarded, so that the beat waits for the next one; the rule names only the earliest TCLK of the answer (log entry 35). -/
def discardBeat (t : Tile) : Tile :=
  match t.writes, t.beats with
  | w :: ws, _ :: bs =>
    match w.deny with
    | some d =>
      if t.dBeat.isSome then t
      else
        let t := { t with beats := bs, uWdCrd := true }
        if w.beat = w.req.len.toNat then
          { t with writes := ws, answers := t.answers ++ [{ write := true, tag := w.req.tag, detail := d, left := 1 }] }
        else { t with writes := { w with beat := w.beat + 1 } :: ws }
    | none => t
  | _, _ => t

/-- The credits sampled on D count from the next TCLK on (02 R56). -/
def takeCredits (rq wd : Bool) (t : Tile) : Tile :=
  { t with dRqCred := min 32 (t.dRqCred + rq.toNat), dWdCred := min 64 (t.dWdCred + wd.toNat) }

/-- A pulse of the initial allowance, on a credit that does not already pulse (10 R250, 02 R59). -/
def allow (t : Tile) : Tile :=
  let t := if !t.uRqCrd && decide (0 < t.rqAllow) then { t with uRqCrd := true, rqAllow := t.rqAllow - 1 } else t
  if !t.uWdCrd && decide (0 < t.wdAllow) then { t with uWdCrd := true, wdAllow := t.wdAllow - 1 } else t

/-- One TCLK of the checker under U_PORT_EN 1. -/
def tclk (i : GateIn) (t : Tile) : Tile :=
  allow (takeCredits i.rqCrd i.wdCrd (discardBeat (checkOldest (acceptInput i (presentRequest (inBurst t) (presentBeat t))))))

/-- One TCLK of the checker, with what it samples. -/
def oneTclk (i : GateIn) (t : Tile) : Tile :=
  let t := beginTclk i.up t
  if t.up then tclk i t else t

/-- GATE_CHECK: one TCLK of the checker (10 R249, R250, R253, R258). -/
def execGateCheck (g : TileNo) (input : GateIn) (s : State) : Host.Outcome State Fault Refusal :=
  .next (if (tile s g.toNat).chkOn then setTile g.toNat (oneTclk input (tile s g.toNat)) s else s)

/-- The code of GERR (02 Table 2.4). -/
def gerr : BitVec 3 := 2

/-- The checker's own read beat: data 0 and check bits 0 (10 R255), with its parity (02 R37). -/
def ownRead (a : GateAnswer) : RdBeat :=
  let last := decide (a.left ≤ 1)
  { tag := a.tag, data := 0, chk := 0, last := last, resp := gerr, detail := a.detail,
    par := BitVec.ofBool (oddParity (BitVec.ofBool last ++ gerr ++ a.detail)) ++ BitVec.ofBool (oddParity a.tag) }

/-- The checker's own write response: WR_BEAT 0 (10 R255). -/
def ownWrite (a : GateAnswer) : WrResp :=
  { tag := a.tag, resp := gerr, detail := a.detail, beat := 0,
    par := BitVec.ofBool (oddParity (gerr ++ a.detail ++ (0 : BitVec 3))) ++ BitVec.ofBool (oddParity a.tag) }

/-- The checker's next own read beat, where D presents none (10 R255, R256). -/
def answerRead (t : Tile) : Tile :=
  match t.answers.find? (fun a => !a.write) with
  | none => t
  | some a =>
    let rest := t.answers.filter (fun x => x.write)
    let reads := t.answers.filter (fun x => !x.write)
    let reads := if a.left ≤ 1 then reads.drop 1 else { a with left := a.left - 1 } :: reads.drop 1
    { t with uRead := some (ownRead a), answers := reads ++ rest }

/-- The checker's next own write response, where D presents none. -/
def answerWrite (t : Tile) : Tile :=
  match t.answers.filter (fun a => a.write) with
  | [] => t
  | a :: ws => { t with uWrite := some (ownWrite a), answers := t.answers.filter (fun x => !x.write) ++ ws }

/-- GERR_RESPONSE: one TCLK of the upstream response channels (10 R249, R255, R256): what arrives on D is presented on U in the
same TCLK, unchanged; the checker's own answers take the TCLKs left free. -/
def execGerrResponse (g : TileNo) (dRead : Option RdBeat) (dWrite : Option WrResp) (s : State) :
    Host.Outcome State Fault Refusal :=
  let t := tile s g.toNat
  .next (if t.chkOn ∧ t.up then
    let t := { t with uRead := dRead, uWrite := dWrite }
    let t := if dRead.isSome then t else answerRead t
    setTile g.toNat (if dWrite.isSome then t else answerWrite t) s
  else s)

/-! ### The ring (10 R272, R273) -/

/-- A tile in the latest census (Table 10.16). -/
def present (s : State) (g : Nat) : Bool := s.gate.map.getLsbD g

/-- KIND of a ring beat (Table 10.8). -/
def ringCode : RingKind → BitVec 4
  | .census => 1 | .write => 2 | .read => 3 | .readData => 4 | .stage => 5 | .apply => 6 | .report => 7 | .taken => 8

/-- A beat with its parity (Table 10.7). DESIGN CHOICE: fields to which no rule gives a value are 0: QUAD and WEN of CENSUS, APPLY, READ,
READ_DATA and REPORT where they have none, and TILE of CENSUS (log entry 36). -/
def ringBeat (kind : RingKind) (g quad : Nat) (wen : BitVec 4) (data : BitVec 128) : RingBeat :=
  let k := ringCode kind
  let t : TileNo := BitVec.ofNat 7 g
  let q : BitVec 7 := BitVec.ofNat 7 quad
  { kind := k, tile := t, quad := q, wen := wen, data := data, par := oddParity (k ++ t ++ q ++ wen ++ data) }

/-- Word `w` of a block in its place in a quad. -/
def quadWord (w : Nat) (v : Word) : BitVec 128 := BitVec.ofNat 128 (v.toNat * 2 ^ (32 * (w % 4)))

/-- The tiles of the latest census. -/
def onRing (s : State) : List Nat := (List.range 128).filter (present s)

/-- A stop lies before the stop of tile `g` on the ring (10 R272). -/
def stopBefore (h g : Nat) : Bool := decide (Config.ringPos (BitVec.ofNat 7 h) < Config.ringPos (BitVec.ofNat 7 g))

/-- Beats pass the stops of the ring: at each of them `i` is what comes in and `o` what goes out. -/
def passStops (i o : Nat → List RingBeat) (s : State) : State :=
  { s with gate := { s.gate with stops := (onRing s).foldl (fun t h =>
      let x : Stop := get {} t h
      put {} t h { rgIn := x.rgIn ++ i h, rgOut := x.rgOut ++ o h }) s.gate.stops } }

/-- GR_TX sends beats for tile `g`, which come back on GR_RX, each as the stop of the tile has made it (10 R272). -/
def ringSaw (g : Nat) (tx rx : List RingBeat) (s : State) : State :=
  passStops (fun h => if h = g ∨ stopBefore h g then tx else rx) (fun h => if h ≠ g ∧ stopBefore h g then tx else rx)
    { s with gate := { s.gate with tx := s.gate.tx ++ tx, rx := s.gate.rx ++ rx } }

/-- A ring failure: GATE_RING, and its record unless one is held (10 R273, Table 10.16). -/
def ringFail (which : RingCase) (g : TileNo) (kind : RingKind) (s : State) : State :=
  let s := setCause 35 s
  if s.gate.ringValid then s
  else noteSet 0x1808 31 { s with gate := { s.gate with
    ringValid := true, ringTile := g, ringUntaken := which == .untaken, ringTimeout := which == .timeout
    ringParity := which == .parity, ringKind := ringCode kind } }

/-- The engine sends beats, given by their quad, WEN and DATA, that ask tile `g` for `f`. A stop whose checker is in reset marks them
and does not act; the beats of a tile that is not on the ring come back unmarked (10 R272, R273). -/
def ringSendAll (kind : RingKind) (g : Nat) (l : List (Nat × BitVec 4 × BitVec 128)) (f : Tile → Tile) (s : State) : State :=
  let beats := fun k => l.map (fun x => ringBeat k g x.1 x.2.1 x.2.2)
  if !s.gate.rstN then s
  else if present s g then
    let s := if (tile s g).chkOn then setTile g (f (tile s g)) s else s
    ringSaw g (beats kind) (beats .taken) s
  else ringFail .untaken (BitVec.ofNat 7 g) kind (ringSaw g (beats kind) (beats kind) s)

/-- The engine sends one beat. -/
def ringSend (kind : RingKind) (g quad : Nat) (wen : BitVec 4) (data : BitVec 128) (f : Tile → Tile) (s : State) : State :=
  ringSendAll kind g [(quad, wen, data)] f s

/-! ### What the ring carries to a tile -/

/-- The engine's shadow of a tile's rules (10 R261). -/
def gateShadow (s : State) (g : Nat) : Table Word := get [] s.gate.shadow g

/-- Replace the shadow of a tile. -/
def setGateShadow (g : Nat) (r : Table Word) (s : State) : State :=
  { s with gate := { s.gate with shadow := put [] s.gate.shadow g r } }

/-- Replace the pending shadow of a tile (13 R339). -/
def setPendShadow (g : Nat) (r : Option (Table Word)) (s : State) : State :=
  { s with gate := { s.gate with pendSh := put none s.gate.pendSh g r } }

/-- GATE_CTL.EN of a tile as written: DRAINED reads 0 while EN is 1 (10 R260). -/
def setEn (en : Bool) (t : Tile) : Tile :=
  { t with en := en, drained := t.drained && !en, offTclk := t.offTclk && !en }

/-- The 45 quads of a set of rules (Table 10.4). -/
def ruleQuads (r : Table Word) : List (Nat × BitVec 4 × BitVec 128) :=
  (List.range 45).map (fun k => (k, 15, (List.range 4).foldl (fun d i => d ||| quadWord i (ruleWord r (4 * k + i))) 0))

/-- STAGE beats put the 45 quads of `q` into a tile's staging buffer (10 R263 step 1). -/
def stageQuads (g : Nat) (q : Table Word) (s : State) : State :=
  ringSendAll .stage g (ruleQuads q) (fun t => { t with staging := q, oldRules := none }) s

/-- A WRITE beat of GATE_CTL.EN. -/
def sendEn (g : Nat) (en : Bool) (s : State) : State :=
  ringSend .write g 48 1 (quadWord 192 (BitVec.ofNat 32 (flag32 0 en))) (setEn en) s

/-- A tile is loaded: its 45 quads from the shadow in WRITE beats, its EN from the record, then its pending quads (10 R267,
R269; 13 R339). DESIGN CHOICE: the tile takes them whatever DRAINED reads, as R267 and R269 say that its rules return and that a tile of
SAFE is closed, where Table 10.8 lets a tile with DRAINED 0 ignore them (log entry 36). -/
def loadTile (g : Nat) (s : State) : State :=
  let r := tileRec s g
  let q := gateShadow s g
  let s := ringSendAll .write g (ruleQuads q) (fun t => { t with rules := q, oldRules := none }) s
  let s := sendEn g r.en s
  let s := if r.en then setTileRec g { r with drained := false } s else s
  match get none s.gate.pendSh g with
  | some q => stageQuads g q s
  | none => s

/-- The ring stops leave reset: their reports are none (10 R248). -/
def openRing (s : State) : State :=
  if s.gate.rstN then s
  else { s with
    gate := { s.gate with rstN := true }
    tiles := tableOf {} (s.tiles.map (fun e => (e.1, { e.2 with reports := 0, oldRules := none }))) }

/-- The CENSUS beat with the bits of the stops of a census that meet a condition (Table 10.8). -/
def censusBeat (census : BitVec 128) (p : Nat → Bool) : RingBeat :=
  ringBeat .census 0 0 0 (BitVec.ofNat 128 (((List.range 128).filter (fun g => census.getLsbD g && p g)).foldl (fun n g => n + 2 ^ g) 0))

/-- The ring census (10 R268, R269, Table 10.8): each stop sets its bit in DATA. -/
def takeCensus (census : BitVec 128) (s : State) : State :=
  let s := openRing s
  passStops (fun h => [censusBeat census (fun g => stopBefore g h)]) (fun h => [censusBeat census (fun g => g == h || stopBefore g h)])
    { s with gate := { s.gate with
      map := census, tx := s.gate.tx ++ [ringBeat .census 0 0 0 0], rx := s.gate.rx ++ [ringBeat .census 0 0 0 census] } }

/-- The tiles of a census are loaded with EN 1 (10 R269). -/
def loadTiles (census : BitVec 128) (s : State) : State :=
  (List.range 128).foldl (fun s g => if census.getLsbD g then loadTile g (setTileRec g { en := true } s) else s)
    (takeCensus census s)

/-- The quads of GATE_STAGE go into a tile's staging buffer (10 R263 step 1). -/
def sendStage (g : Nat) (s : State) : State := stageQuads g s.gate.stage s

/-- The APPLY beat reaches a tile (10 R263 step 2). -/
def sendApply (g : Nat) (s : State) : State := ringSend .apply g 0 0 0 (fun t => { t with apply := true }) s

/-! ### Host accesses to a tile's block -/

/-- A GATE_UPDATE of the tile is in progress (10 R265). -/
def tileBusy (s : State) (g : Nat) : Bool :=
  match s.cmd.job with
  | .gateUpdate t _ => t == g
  | _ => false

/-- A rule word is written (10 R261); the tile writes it only while it is drained (Table 10.8). -/
def writeRule (g w : Nat) (v : Word) (s : State) : State :=
  let r := tileRec s g
  if w ≤ 176 ∧ ¬ r.en ∧ r.drained then
    ringSend .write g (w / 4) (BitVec.ofNat 4 (2 ^ (w % 4))) (quadWord w v)
      (fun t => if t.drained then { t with rules := putRule t.rules w v } else t)
      (setGateShadow g (putRule (gateShadow s g) w v) s)
  else s

/-- GATE_CTL is written: the engine's record and the tile (10 R260, R261). -/
def writeEn (g : Nat) (en : Bool) (s : State) : State :=
  let r := tileRec s g
  sendEn g en (setTileRec g { en := en, drained := r.drained && !en } s)

/-- GATE_LOG_POP is written (Table 10.14). -/
def popDenial (g : Nat) (pop : Bool) (s : State) : State :=
  ringSend .write g 49 2 (quadWord 197 (BitVec.ofNat 32 (flag32 0 pop)))
    (fun t => if pop then { t with log := t.log.drop 1 } else t) s

/-- Word `w` of a tile's block is one that Table 10.4 names and the tile holds. -/
def tileHeld (w : Nat) : Bool := w == 0xC0 || w == 0xC1 || w == 0xC4 || w == 0xC5 || (decide (0xE0 ≤ w) && decide (w < 0xF0))

/-- A write of word `w` of a tile's block. One of a word that the tile holds and that has no field to write is posted all the same
(10 R274). -/
def writeTileWord (g w : Nat) (v : Word) (s : State) : State :=
  if w ≤ 176 then writeRule g w v s
  else if w = 0xC0 then writeEn g (bit v 0) s
  else if w = 0xC5 then popDenial g (bit v 0) s
  else if tileHeld w then ringSend .write g (w / 4) (BitVec.ofNat 4 (2 ^ (w % 4))) (quadWord w v) id s
  else s

/-- A denial log entry's words (Table 10.15). -/
def denyWord (e : DenyEntry) (k : Nat) : Word :=
  let q := e.req
  match k with
  | 0 => fld q.addr 0 32
  | 1 => BitVec.ofNat 32 (flag32 31 true + flag32 30 q.write + flag32 29 q.priv + at32 22 q.dom.toNat + at32 16 q.mid.toNat +
      (fld q.addr 32 16 : BitVec 16).toNat)
  | 2 => BitVec.ofNat 32 (at32 24 q.tag.toNat + at32 20 q.len.toNat + at32 17 q.size.toNat + flag32 9 e.matched +
      at32 4 e.region.toNat + e.detail.toNat)
  | _ => BitVec.ofNat 32 e.seq.toNat

/-- Word `w` of a tile's block as a read returns it: rule words from the shadow, the others from the tile (10 R261, R273,
R274; Tables 10.12 to 10.15). -/
def readTileWord (s : State) (g w : Nat) : Word :=
  if w < 180 then ruleWord (gateShadow s g) w
  else if !(s.gate.rstN && present s g && (tile s g).chkOn) then 0
  else
    let t := tile s g
    if w = 0xC0 then BitVec.ofNat 32 (flag32 0 t.en)
    else if w = 0xC1 then BitVec.ofNat 32 (at32 16 t.denyCnt.toNat + flag32 2 t.chkOn + flag32 0 t.drained)
    else if w = 0xC4 then BitVec.ofNat 32 (at32 8 t.lost.toNat + t.log.length)
    else if 0xE0 ≤ w ∧ w < 0xF0 then
      match t.log[(w - 0xE0) / 4]? with
      | some e => denyWord e (w % 4)
      | none => 0
    else 0

/-- The four words of a quad of a tile's block. -/
def quadOf (s : State) (g q : Nat) : BitVec 128 :=
  (List.range 4).foldl (fun d i => d ||| quadWord i (readTileWord s g (4 * q + i))) 0

/-- A host read of a tile's block that is performed: of a word that the tile holds by a READ beat, whose answer is READ_DATA or,
with no such tile on the ring, the beat unmarked (10 R273, R274). -/
def tileRead (g w : Nat) (s : State) : State :=
  let v := readTileWord (if w < 180 then atStart s else s) g w
  if !(s.gate.rstN && tileHeld w) then hostRead v s
  else
    let b := ringBeat .read g (w / 4) 0 0
    hostRead v (if present s g then ringSaw g [b] [ringBeat .readData g (w / 4) 0 (quadOf s g (w / 4))] s
      else ringFail .untaken (BitVec.ofNat 7 g) .read (ringSaw g [b] [b] s))

/-- A host access is held back, and stalls the port (10 R265). -/
def holdAccess (g w : Nat) (v : Option Word) (s : State) : State :=
  { s with gate := { s.gate with held := some (g, w, v) }, cfg := { s.cfg with ans := none } }

/-! ### GATE_UPDATE and commits at the tile -/

/-- A command of 13 Table 13.8 completes: DIGEST_REC is to be written (13 R339; log entry 38). -/
def markRec (s : State) : State := { s with dig := { s.dig with recPend := true } }

/-- The runtime configuration changed by an epoch-bumping command (11 R298, 13 R339). -/
def bumpEpoch (s : State) : State := { s with dig := { s.dig with epoch := s.dig.epoch + 1, recPend := true } }

/-- What a failed GATE_UPDATE leaves in its tile: the rules in force as they were (10 R263). -/
def unapply (t : Tile) : Tile :=
  { t with
    apply := false, oldRules := none, rules := t.oldRules.getD t.rules
    reports := if t.oldRules.isSome then t.reports &&& ~~~ flagApplyDone else t.reports }

/-- The sequence of 10 R263 step 3: the TCLK after APPLY is seen with EN 0, the one in which DRAINED reads 1 and the staging buffer
becomes the rules in force, and the one with EN 1 again, with what the checker samples in each (Table 10.6). -/
def applySequence (i1 i2 i3 : GateIn) (t : Tile) : Tile :=
  let t := { t with apply := false, oldRules := some t.rules }
  let t := oneTclk i1 (setEn false t)
  let t := oneTclk i2 t
  let t := oneTclk i3 (setEn true { t with rules := t.staging })
  { t with reports := t.reports ||| flagApplyDone }

/-- GATE_APPLY. -/
def execGateApply (a : ApplyIn) (s : State) : Host.Outcome State Fault Refusal :=
  let t := tile s a.tile.toNat
  .next (if t.chkOn ∧ t.apply then setTile a.tile.toNat (applySequence a.in1 a.in2 a.in3 t) s else s)

/-- ARMED falls once the last effect of the commit is made: the peg wrap and the last APPLY_DONE (11 R304). -/
def settleArmed (s : State) : State :=
  let waits : Bool := match s.com.wrap with
    | some w => s.pegCommits.any (fun c => c.wrap == w)
    | none => false
  if s.com.armed ∧ s.com.main ∧ s.com.pegs ∧ s.com.tiles = 0 ∧ ¬ waits then
    { s with com := { s.com with armed := false, main := false, pegs := false, wrap := none } }
  else s

/-- A commit no longer waits for tile `g` (11 Table 11.6). -/
def commitTileDone (g : Nat) (s : State) : State :=
  settleArmed { s with com := { s.com with tiles := setBit s.com.tiles g false } }

/-- The tile's part of APPLY_DONE at the engine (10 R263 step 4; 11 Table 11.6). -/
def tileApplied (g : Nat) (s : State) : State :=
  commitTileDone g (setTile g { tile s g with oldRules := none } (setTileRec g { en := true, drained := false } s))

/-- The engine receives a tile's report (10 R271), with `done` for APPLY_DONE. -/
def takeReportWith (done : Nat → State → State) (g : Nat) (f : BitVec 6) (s : State) : State :=
  let b := ringBeat .report g 0 0 (f.setWidth 128)
  let s := passStops (fun h => if stopBefore g h then [b] else []) (fun h => if h = g ∨ stopBefore g h then [b] else [])
    { s with gate := { s.gate with rx := s.gate.rx ++ [b] } }
  let s := if bit f 0 then setCause 32 s else s
  let s := if bit f 1 then setCause 33 s else s
  let s := if bit f 2 then setCause 34 s else s
  let s := if f &&& 7 ≠ 0 then
      noteSet (0x1804 + g / 32) (g % 32) { s with gate := { s.gate with evt := setBit s.gate.evt g true } }
    else s
  let s := if bit f 3 then setTileRec g { tileRec s g with drained := !(tileRec s g).en } s else s
  let s := if bit f 5 then done g s else s
  if bit f 4 then loadTile g s else s

/-- The pending report of a tile is inserted into an empty slot and reaches the engine (10 R271). -/
def flushWith (done : Nat → State → State) (g : Nat) (s : State) : State :=
  let t := tile s g
  if s.gate.rstN ∧ t.reports ≠ 0 ∧ present s g then takeReportWith done g t.reports (setTile g { t with reports := 0 } s) else s

/-- The held access is performed once the command has ended (10 R265); a report of the tile travels ahead of a read's answer (R261). -/
def releaseHeld (s : State) : State :=
  match s.gate.held with
  | none => s
  | some (g, w, v) =>
    let s := { s with gate := { s.gate with held := none } }
    match v with
    | some v => answer 0 false (writeTileWord g w v s)
    | none => tileRead g w (if tileHeld w then flushWith tileApplied g s else s)

/-- End the GATE_UPDATE in progress; the access that it held back follows. -/
def endUpdate (code : BitVec 8) (s : State) : State := releaseHeld (finish code {} s)

/-- A GATE_UPDATE in progress fails (10 R263, R273): rules in force and shadow stay. -/
def failUpdate (g : Nat) (s : State) : State := endUpdate 14 (setTile g (unapply (tile s g)) s)

/-- APPLY_DONE reaches the engine (10 R263 step 4; 11 Table 11.6). -/
def applyDone (g : Nat) (s : State) : State :=
  let s := tileApplied g s
  match s.cmd.job with
  | .gateUpdate t false => if t = g then endUpdate 0 (bumpEpoch (setGateShadow g s.gate.stage s)) else s
  | _ => s

/-- The engine receives a tile's report. -/
def takeReport (g : Nat) (f : BitVec 6) (s : State) : State := takeReportWith applyDone g f s

/-- The pending report of a tile reaches the engine. -/
def flushReport (g : Nat) (s : State) : State := flushWith applyDone g s

/-- GATE_REPORT: the ring runs while CORE does (10 R268, R271). -/
def execGateReport (g : TileNo) (s : State) : Host.Outcome State Fault Refusal :=
  .next (if coreOn s then flushReport g.toNat s else s)

/-- A host write of a tile's block. -/
def hostTileWrite (g w : Nat) (v : Word) (s : State) : State :=
  if tileBusy s g then holdAccess g w (some v) s else writeTileWord g w v s

/-- A host read of a tile's block; a report of the tile travels ahead of the answer (10 R261). -/
def hostTileRead (g w : Nat) (s : State) : State :=
  if tileBusy s g then holdAccess g w none s
  else tileRead g w (if tileHeld w then flushReport g s else s)

/-- GATE_RULE_WRITE (10 R261). -/
def effGateRuleWrite (g : TileNo) (word : BitVec 8) (data : Word) (s : State) : State :=
  if coreOn s ∧ word.toNat ≤ 176 then hostTileWrite g.toNat word.toNat data s else s

/-- See `effGateRuleWrite`. -/
def execGateRuleWrite (g : TileNo) (word : BitVec 8) (data : Word) (s : State) : Host.Outcome State Fault Refusal :=
  .next (hostAccess (.gateRuleWrite g word data) (effGateRuleWrite g word data) s)

/-- GATE_CTL_WRITE (10 R260). -/
def effGateCtlWrite (g : TileNo) (en : Bool) (s : State) : State :=
  if coreOn s then hostTileWrite g.toNat 0xC0 (BitVec.ofNat 32 (flag32 0 en)) s else s

/-- See `effGateCtlWrite`. -/
def execGateCtlWrite (g : TileNo) (en : Bool) (s : State) : Host.Outcome State Fault Refusal :=
  .next (hostAccess (.gateCtlWrite g en) (effGateCtlWrite g en) s)

/-- GATE_LOG_POP (10 R270). -/
def effGateLogPop (g : TileNo) (pop : Bool) (s : State) : State :=
  if coreOn s then hostTileWrite g.toNat 0xC5 (BitVec.ofNat 32 (flag32 0 pop)) s else s

/-- See `effGateLogPop`. -/
def execGateLogPop (g : TileNo) (pop : Bool) (s : State) : Host.Outcome State Fault Refusal :=
  .next (hostAccess (.gateLogPop g pop) (effGateLogPop g pop) s)

/-- GATE_RING (10 R273, Table 10.16): a failing beat; a host read whose beat is lost returns 0, a GATE_UPDATE in progress fails
(13 Table 13.6). -/
def execGateRing (which : RingCase) (g : TileNo) (kind : RingKind) (s : State) : Host.Outcome State Fault Refusal :=
  .next (if !coreOn s then s
  else
    let s := ringFail which g kind s
    let s := if kind == .read || kind == .readData then
        { s with cfg := { s.cfg with ans := s.cfg.ans.map (fun a => { a with data := 0 }) } }
      else s
    match s.cmd.job with
    | .gateUpdate t _ => failUpdate t s
    | _ => s)

/-! ### Checker resets (10 R245, R267, R273) -/

/-- What a reset of the checker leaves: the report flags that the ring stop has collected (10 R245, R271). -/
def checkerReset (t : Tile) : Tile := { ({} : Tile) with reports := t.reports }

/-- CHECKER_RESET_ASSERT: TRST_N falls; a GATE_UPDATE of the tile fails, and a commit no longer waits for it. -/
def execCheckerResetAssert (g : TileNo) (s : State) : Host.Outcome State Fault Refusal :=
  .next (
    let s := commitTileDone g.toNat (setTile g.toNat (checkerReset (tile s g.toNat)) s)
    if tileBusy s g.toNat then failUpdate g.toNat s else s)

/-- TILE_RESET: TRST_N rises. Every region has EN 0 and the default map forbids both directions: no rule word is set. The ring
stop reports HELLO, unless the ring holds it in reset (10 R248). -/
def execTileReset (g : TileNo) (denyAtReset : Bool) (s : State) : Host.Outcome State Fault Refusal :=
  let t := tile s g.toNat
  let f := if denyAtReset then flagHello else flagHello ||| flagDrained
  .next (setTile g.toNat { ({} : Tile) with
    chkOn := true, en := denyAtReset, drained := !denyAtReset, offTclk := !denyAtReset, denyRst := denyAtReset
    reports := if s.gate.rstN then t.reports ||| f else 0 } s)

end Sys2Proof.Machine
end

