-- ==== Sys2Proof/Machine/Bitstream.lean ====
section
/-! DEFINITION. The bit-stream (12): parsing a copy, the rejection reasons of Table 12.9 with their offsets, and the digest
image of R330. An offset is that of the byte or field that breaks the rule (log entry 27). -/

namespace Sys2Proof.Machine

/-! ### Bytes of a copy -/

/-- Byte `o` of a copy area; bytes not listed are erased. -/
def imgByte (b : List Byte) (o : Nat) : Nat := (b[o]?.getD 0xFF).toNat

/-- `n` bytes from `o` as a little-endian number (R309). -/
def imgLe (b : List Byte) (o : Nat) : Nat → Nat
  | 0 => 0
  | n + 1 => imgByte b o + 256 * imgLe b (o + 1) n

/-- Bit `i` of the byte at `o`. -/
def imgBit (b : List Byte) (o i : Nat) : Bool := (imgByte b o).testBit i

/-- `n` bytes from `o`. -/
def imgSlice (b : List Byte) (o n : Nat) : List Byte := (List.range n).map (fun i => b[o + i]?.getD 0xFF)

/-- LENGTH, NSECT, SEQ and EPOCH of the header (Table 12.1). -/
def imgLength (b : List Byte) : Nat := imgLe b 8 4
/-- See `imgLength`. -/
def imgNsect (b : List Byte) : Nat := imgLe b 6 2
/-- See `imgLength`. -/
def imgSeq (b : List Byte) : Nat := imgLe b 0x10 4
/-- See `imgLength`. -/
def imgEpoch (b : List Byte) : Nat := imgLe b 0xC 4

/-- The trailer, byte j as bits [8j + 7 : 8j] (R311, BS_TRAIL). -/
def imgTrailer (b : List Byte) : BitVec 256 := BitVec.ofNat 256 (imgLe b (imgLength b - 32) 32)

/-- A section as its header names it (Table 12.2); `off` is the offset of the header. -/
structure Sect where
  off   : Nat
  type  : Nat
  count : Nat
  len   : Nat
  deriving DecidableEq, Repr

/-- The sections, from the offset after the header on (R310). -/
def walkSections (b : List Byte) : Nat → Nat → List Sect
  | 0, _ => []
  | n + 1, o =>
    let h : Sect := { off := o, type := imgLe b o 2, count := imgLe b (o + 2) 2, len := imgLe b (o + 4) 4 }
    h :: walkSections b n (o + 8 + h.len)

/-- The sections of a copy. -/
def sections (b : List Byte) : List Sect := walkSections b (imgNsect b) 32

/-- The offset after the last section. -/
def sectionsEnd (l : List Sect) : Nat := 32 + (l.map (fun h => 8 + h.len)).sum

/-- The body offset and COUNT of a section; an absent one has COUNT 0 (R311). -/
def findSect (l : List Sect) (t : Nat) : Nat × Nat :=
  match l.find? (fun h => h.type == t) with
  | some h => (h.off + 8, h.count)
  | none => (0, 0)

/-! ### Section structure (reason 0x9) -/

/-- The record size of a type, and the least and greatest COUNT (Table 12.3); PROGRAM records have no fixed size. -/
def sectShape (t : Nat) : Option (Nat × Nat × Nat) :=
  match t with
  | 0x01 => some (16, 0, 1024)
  | 0x02 => some (8, 1, 1)
  | 0x03 => some (16, 8, 8)
  | 0x04 => some (16, 1, 64)
  | 0x05 => some (16, 0, 8)
  | 0x06 => some (24, 1, 1)
  | 0x07 => some (0, 0, 4096)
  | 0x10 => some (4, 0, 512)
  | 0x11 => some (4, 0, 4096)
  | 0x12 => some (4, 0, 64)
  | 0x13 => some (136, 0, 8)
  | 0x14 => some (728, 0, 128)
  | _ => none

/-- The chunks of a PROGRAM body: offset of the descriptor, OFFSET and NWORDS (R319). -/
def chunks (b : List Byte) (o : Nat) : Nat → List (Nat × Nat × Nat)
  | 0 => []
  | n + 1 =>
    let w := imgLe b (o + 4) 2
    (o, imgLe b o 3 % 2 ^ 18, w) :: chunks b (o + 8 + 8 * w) n

/-- The bytes of a section's records. -/
def recordBytes (b : List Byte) (h : Sect) : Nat :=
  if h.type = 7 then ((chunks b (h.off + 8) h.count).map (fun c => 8 + 8 * c.2.2)).sum
  else h.count * (match sectShape h.type with
    | some s => s.1
    | none => 0)

/-- The offsets at which one section breaks the structure, `prev` being the TYPE before it. -/
def sectFaults (b : List Byte) (prev : Nat) (h : Sect) : List Nat :=
  match sectShape h.type with
  | none => [h.off]
  | some s =>
    (if h.type ≤ prev then [h.off] else []) ++
    (if h.count < s.2.1 ∨ s.2.2 < h.count then [h.off + 2] else []) ++
    (if h.len ≠ alignUp (recordBytes b h) 8 then [h.off + 4] else [])

/-- The faults of all sections in order. -/
def orderFaults (b : List Byte) : Nat → List Sect → List Nat
  | _, [] => []
  | prev, h :: r => sectFaults b prev h ++ orderFaults b h.type r

/-- A required section that is missing, at the place where it should stand. -/
def missingFaults (l : List Sect) : List Nat :=
  [1, 2, 3, 4, 6].filterMap (fun t =>
    if l.any (fun h => h.type == t) then none
    else some (match l.find? (fun h => decide (t < h.type)) with
      | some h => h.off
      | none => sectionsEnd l))

/-- Reason 0x9. -/
def structureFaults (b : List Byte) : List Nat :=
  let l := sections b
  (if imgNsect b < 5 ∨ 12 < imgNsect b then [6] else []) ++ orderFaults b 0 l ++ missingFaults l

/-! ### Record encoding (reason 0xA) -/

/-- The bytes of `m`, from `o` upward, in which a bit of the mask is not 0. -/
def reservedAt (b : List Byte) (o : Nat) (m : List (Nat × Nat)) : List Nat :=
  m.filterMap (fun p => if imgByte b (o + p.1) &&& p.2 = 0 then none else some (o + p.1))

/-- Bytes that must be 0 as a whole. -/
def zeroBytes (b : List Byte) (o n : Nat) : List Nat := reservedAt b o ((List.range n).map (fun i => (i, 0xFF)))

/-- The reserved encodings of a peg (07 Table 7.7; 13 R336). -/
def pegBad (w : Nat) : Bool :=
  let k := w / 2 ^ 14
  let o := w % 1024
  k == 3 || w / 1024 % 16 != 0 || (k == 0 && o != 0) || (k == 2 && (o % 4 == 3 || o / 4 != 0))

/-- A condition on a field at `o`. -/
def fieldFault (o : Nat) (bad : Bool) : List Nat := if bad then [o] else []

/-- The offsets at which a record of a type breaks its encoding (Tables 12.4 to 12.8; R313, R319, R321, R322). -/
def recordFaults (b : List Byte) (t r : Nat) : List Nat :=
  match t with
  | 0x01 => reservedAt b r [(1, 0xFC), (3, 0x80), (4, 0x80), (5, 0xFF), (6, 0xFF), (7, 0xFF), (8, 0x07), (14, 0xFF), (15, 0x7F)] ++
      fieldFault (r + 2) (imgByte b (r + 2) % 4 == 3)
  | 0x02 => fieldFault r (decide (64 < imgByte b r)) ++ fieldFault (r + 1) (decide (64 < imgByte b (r + 1))) ++
      zeroBytes b (r + 2) 6
  | 0x03 => reservedAt b r [(0, 0xF0)] ++ zeroBytes b (r + 1) 7 ++ zeroBytes b (r + 14) 2
  | 0x04 => reservedAt b r [(0, 0xFF), (1, 0x0F), (6, 0x08), (7, 0xF8), (14, 0xFF), (15, 0xFF)] ++
      fieldFault (r + 8) (imgLe b (r + 8) 2 % 4096 != 4095)
  | 0x05 => reservedAt b r [(0, 0xFF), (1, 0x0F), (6, 0xFF), (7, 0xFF), (14, 0xFF), (15, 0xFF)] ++
      fieldFault (r + 8) (imgLe b (r + 8) 2 % 4096 != 4095)
  | 0x06 => reservedAt b r [(2, 0xF0), (3, 0xFF), (0xB, 0xFF), (0xE, 0x80), (0xF, 0xFF), (0x13, 0xFF)] ++
      zeroBytes b (r + 0x14) 4 ++
      fieldFault (r + 2) (imgByte b (r + 2) % 4 == 3) ++
      fieldFault (r + 4) (imgLe b (r + 4) 4 == 0 || decide (65536 < imgLe b (r + 4) 4)) ++
      fieldFault (r + 8) (decide (imgLe b (r + 8) 2 < 256)) ++
      fieldFault (r + 0xA) (decide (imgByte b (r + 0xA) < 2))
  | 0x07 => reservedAt b r [(0, 0x07), (2, 0xFC), (3, 0xFF), (6, 0xFF), (7, 0xFF)] ++
      fieldFault (r + 4) (imgLe b (r + 4) 2 == 0 || decide (32768 < imgLe b (r + 4) 2))
  | 0x10 => reservedAt b r [(1, 0xFE), (3, 0xF0)]
  | 0x11 => reservedAt b r [(1, 0xC0), (3, 0x80)] ++ fieldFault (r + 1) (imgByte b (r + 1) / 16 % 4 == 0)
  | 0x12 => reservedAt b r [(0, 0xC0), (1, 0xFF), (3, 0xFE)]
  | 0x13 => reservedAt b r [(0, 0xF8)] ++ zeroBytes b (r + 1) 7 ++
      (List.range 64).flatMap (fun k => fieldFault (r + 8 + 2 * k) (pegBad (imgLe b (r + 8 + 2 * k) 2)))
  | 0x14 => reservedAt b r [(0, 0x80)] ++ zeroBytes b (r + 1) 7 ++
      (List.range 180).flatMap (fun w =>
        reservedAt b (r + 8 + 4 * w) ((List.range 4).map (fun j => (j, (~~~ ruleMask w).toNat / 256 ^ j % 256))))
  | _ => []

/-- The key of a record; PORTS and the sections with one record have none (R310). -/
def recordKey (b : List Byte) (t r : Nat) : Option Nat :=
  match t with
  | 0x01 => some (imgLe b r 2 % 1024)
  | 0x04 => some (imgLe b r 6)
  | 0x05 => some (imgLe b r 6)
  | 0x07 => some (imgLe b r 3 % 2 ^ 18)
  | 0x10 => some (imgLe b r 2 % 512)
  | 0x11 => some (imgLe b r 2 % 4096)
  | 0x12 => some (imgByte b r % 64)
  | 0x13 => some (imgByte b r % 8)
  | 0x14 => some (imgByte b r % 128)
  | _ => none

/-- The offsets of the records of a section. -/
def recordOffsets (b : List Byte) (t o n : Nat) : List Nat :=
  if t = 7 then (chunks b o n).map (·.1)
  else match sectShape t with
    | some s => (List.range n).map (fun i => o + s.1 * i)
    | none => []

/-- The records whose key is not above the one before. -/
def keyFaults (b : List Byte) (t : Nat) : List Nat → List Nat
  | r :: q :: rest =>
    (match recordKey b t r, recordKey b t q with
     | some x, some y => fieldFault q (decide (y ≤ x))
     | _, _ => []) ++ keyFaults b t (q :: rest)
  | _ => []

/-- Reason 0xA in one section. -/
def sectEncoding (b : List Byte) (h : Sect) : List Nat :=
  let rs := recordOffsets b h.type (h.off + 8) h.count
  let n := recordBytes b h
  rs.flatMap (recordFaults b h.type) ++ keyFaults b h.type rs ++ zeroBytes b (h.off + 8 + n) (h.len - n)

/-- Reason 0xA. -/
def encodingFaults (b : List Byte) : List Nat := zeroBytes b 0x14 12 ++ (sections b).flatMap (sectEncoding b)

/-! ### Consistency (reason 0xB, Table 12.10) -/

/-- The records of a section of a copy. -/
def recordsOf (b : List Byte) (t : Nat) : List Nat :=
  let p := findSect (sections b) t
  recordOffsets b t p.1 p.2

/-- The PORTS record of port `n`. -/
def portRec (b : List Byte) (n : Nat) : Nat := (findSect (sections b) 3).1 + 16 * n

/-- A record's port is in use. -/
def portUsed (b : List Byte) (n : Nat) : Bool := imgBit b (portRec b n) 0

/-- The fetch port of a copy. -/
def copyFetchPort (b : List Byte) : Option Nat := (List.range 8).find? (fun n => imgBit b (portRec b n) 3)

/-- An address window of a copy: its record, BASE, LIMIT, PORT. -/
def windowsOf (b : List Byte) (t : Nat) : List (Nat × Nat × Nat × Nat) :=
  (recordsOf b t).map (fun r => (r, imgLe b r 6, imgLe b (r + 8) 6, imgByte b (r + 6) % 8))

/-- The windows that overlap one before them. -/
def overlaps (l : List (Nat × Nat × Nat × Nat)) : List Nat :=
  l.filterMap (fun w => if l.any (fun v => decide (v.1 < w.1) && decide (w.2.1 ≤ v.2.2.1) && decide (v.2.1 ≤ w.2.2.1))
    then some w.1 else none)

/-- The assigned channels of a copy. -/
def assignedIn (b : List Byte) : List Nat := (recordsOf b 1).map (fun r => imgLe b r 2 % 1024)

/-- The ENTRY rules of one PARTITION record (R107, R317, R93). -/
def entryFaults (b : List Byte) (r : Nat) : List Nat :=
  let a := imgLe b (r + 8) 6
  let sys := imgBit b (r + 15) 7
  let urgent := imgByte b (r + 2) % 4 == 2
  let fetchOk := match copyFetchPort b with
    | some p => (windowsOf b 4).any (fun w => decide (w.2.1 ≤ a) && decide (a ≤ w.2.2.1) && w.2.2.2 == p)
    | none => false
  fieldFault (r + 8) (if sys then urgent || !fetchOk else decide (0x3FFF8 < a))

/-- The role rules of the CASCADE record (R283). -/
def roleFaults (b : List Byte) (r : Nat) : List Nat :=
  let id := imgLe b r 2
  let n := imgLe b (r + 4) 4
  let up := imgBit b (r + 2) 2
  let dn := imgBit b (r + 2) 3
  match imgByte b (r + 2) % 4 with
  | 0 => fieldFault r (id != 0) ++ fieldFault (r + 4) (n != 1) ++ fieldFault (r + 2) (up || dn)
  | 1 => fieldFault r (id != 0) ++ fieldFault (r + 4) (decide (n < 2)) ++ fieldFault (r + 2) (up || !dn)
  | _ => fieldFault r (id == 0 || decide (n ≤ id)) ++ fieldFault (r + 2) (!up)

/-- Chunks that overlap the one before, or end above the store (R319). -/
def chunkFaults : List (Nat × Nat × Nat) → List Nat
  | [] => []
  | [c] => fieldFault c.1 (decide (0x40000 < c.2.1 + 8 * c.2.2))
  | c :: d :: r => fieldFault c.1 (decide (0x40000 < c.2.1 + 8 * c.2.2)) ++
      fieldFault d.1 (decide (d.2.1 < c.2.1 + 8 * c.2.2)) ++ chunkFaults (d :: r)

/-- Reason 0xB. -/
def consistencyFaults (b : List Byte) : List Nat :=
  let mv := (findSect (sections b) 2).1
  let fetches := (List.range 8).filter (fun n => imgBit b (portRec b n) 3)
  let wins := windowsOf b 4
  let nvs := windowsOf b 5
  let asg := assignedIn b
  fieldFault mv (decide (64 < imgByte b mv + imgByte b (mv + 1))) ++
  (fetches.drop 1).map (portRec b) ++ (fetches.filter (fun n => !portUsed b n)).map (portRec b) ++
  (recordsOf b 1).flatMap (entryFaults b) ++
  wins.flatMap (fun w => fieldFault (w.1 + 8) (decide (w.2.2.1 < w.2.1)) ++ fieldFault (w.1 + 6) (!portUsed b w.2.2.2)) ++
  overlaps wins ++
  nvs.flatMap (fun w => fieldFault w.1 (!(decide (w.2.1 ≤ w.2.2.1) &&
    wins.any (fun v => decide (v.2.1 ≤ w.2.1) && decide (w.2.2.1 ≤ v.2.2.1))))) ++
  overlaps nvs ++
  (recordsOf b 0x10).flatMap (fun r => fieldFault (r + 2) (!asg.contains (imgLe b (r + 2) 2 % 1024))) ++
  (recordsOf b 0x13).flatMap (fun r =>
    fieldFault r (!portUsed b (imgByte b r % 8)) ++
    (List.range 64).flatMap (fun k =>
      let w := imgLe b (r + 8 + 2 * k) 2
      fieldFault (r + 8 + 2 * k) (w / 2 ^ 14 == 1 && !asg.contains (w % 1024)))) ++
  (recordsOf b 6).flatMap (roleFaults b) ++
  (match findSect (sections b) 7 with
   | (o, n) => chunkFaults (chunks b o n))

/-! ### Validation (R323) -/

/-- A copy as read, with the offset of a burst that timed out (13 R341). -/
structure Copy where
  image : CopyImage
  tmo   : Option Nat := none
  deriving DecidableEq, Repr

/-- The least of some offsets. -/
def least (l : List Nat) : Option Nat := bestBy (fun a b => decide (a < b)) l

/-- The first reason of a list that applies, as reason and offset. -/
def firstReason : List (Nat × Option Nat) → Nat × Nat
  | [] => (0, 0)
  | (c, some o) :: _ => (c, o)
  | (_, none) :: r => firstReason r

/-- The response is TERR with detail 0x6 (12 R308). -/
def unfinished (e : Nat × BitVec 3 × BitVec 4) : Bool := e.2.1 == 1 && e.2.2 == 6

/-- An uncorrectable beat within LENGTH, or in the header that holds it. -/
def ueWithin (i : CopyImage) : List Nat := i.ue.filter (fun o => decide (o < 32) || decide (o < imgLength i.bytes))

/-- The SHA-256 of the bytes before the trailer (R311). -/
def imgHash (b : List Byte) : BitVec 256 := sha256 (imgSlice b 0 (imgLength b - 32))

/-- Reasons 0x4 to 0xB of a copy whose bytes are known. -/
def contentReason (b : List Byte) (lock : Option (BitVec 256)) : Nat × Nat :=
  let len := imgLength b
  if imgLe b 0 4 ≠ 0x53424353 then (4, 0)
  else if imgByte b 4 ≠ 0 then (5, 4)
  else if imgByte b 5 ≠ 1 then (5, 5)
  else if len % 8 ≠ 0 ∨ 262144 < len ∨ len ≠ sectionsEnd (sections b) + 32 then (6, 8)
  else if imgHash b ≠ imgTrailer b then (7, 0)
  else if lock.isSome ∧ lock ≠ some (imgTrailer b) then (8, 0)
  else firstReason [(9, least (structureFaults b)), (10, least (encodingFaults b)), (11, least (consistencyFaults b))]

/-- The lowest reason that applies to a copy, and its offset (R323, Table 12.9). -/
def validate (c : Copy) (lock : Option (BitVec 256)) : Nat × Nat :=
  match least ((c.image.bad.filter unfinished).map (·.1)) with
  | some o => (1, o)
  | none => match least ((c.image.bad.filter (fun e => !unfinished e)).map (·.1) ++ c.tmo.toList) with
    | some o => (2, o)
    | none => match least (ueWithin c.image) with
      | some o => (3, o)
      | none => contentReason c.image.bytes lock

/-- The load of a validated copy succeeds (R328): every read answers OK and the bytes hash to its trailer. -/
def loadOk (valid load : CopyImage) : Bool :=
  load.bad.isEmpty && (ueWithin load).isEmpty && imgHash load.bytes == imgTrailer valid.bytes &&
  imgLength load.bytes == imgLength valid.bytes

/-! ### The digest image (R330) -/

/-- `n` bytes of a number, least significant first. -/
def leBytes (v : Nat) : Nat → List Byte
  | 0 => []
  | n + 1 => BitVec.ofNat 8 v :: leBytes (v / 256) n

/-- A section: header, body, padding (R310). -/
def sectBytes (t count : Nat) (body : List Byte) : List Byte :=
  let n := alignUp body.length 8
  leBytes t 2 ++ leBytes count 2 ++ leBytes n 4 ++ body ++ List.replicate (n - body.length) 0

/-- The body of a structural section as last loaded. -/
def loadedBody (s : State) (t : Nat) : Nat × List Byte :=
  match s.bs.loaded.find? (fun x => x.type == t) with
  | some x => (x.count, x.body)
  | none => (0, [])

/-- PARTITION records with PRIO set to 0. -/
def zeroPrio (l : List Byte) : List Byte :=
  (l.zipIdx).map (fun p => if p.2 % 16 = 2 then p.1 &&& 0xE3 else p.1)

/-- A route word as its record (Table 12.8). -/
def routeRecord (key : Nat) (mask w : Word) : List Byte := leBytes ((w &&& mask).toNat + key) 4

/-- The bytes of the program store. -/
def storeBytes (m : Memory) : List Byte := (List.range 262144).map (fun a => readByte m a)

/-- The digest image. -/
def digestImage (s : State) : List Byte :=
  let st := fun t => let p := loadedBody s t; sectBytes t p.1 (if t = 1 then zeroPrio p.2 else p.2)
  let rts := fun (t : Nat) (mask : Word) (l : List (Nat × Word)) =>
    sectBytes t l.length (l.flatMap (fun e => routeRecord e.1 mask e.2))
  st 1 ++ st 2 ++ st 3 ++ st 4 ++ st 5 ++ st 6 ++
  sectBytes 7 1 (leBytes 0 4 ++ leBytes 32768 2 ++ leBytes 0 2 ++ storeBytes s.prog) ++
  rts 0x10 0x0FFF0000 (s.routes.req.filter (fun e => bit e.2 31)) ++
  rts 0x11 0x7FFF3000 (s.routes.evt.filter (fun e => bit e.2 12 || bit e.2 13)) ++
  rts 0x12 0x01FF0000 (s.routes.glob.filter (fun e => bit e.2 31)) ++
  sectBytes 0x13 8 ((List.range 8).flatMap (fun n => leBytes n 8 ++
    (List.range 64).flatMap (fun k => leBytes (get (0 : BitVec 16) s.pegAct (n * 64 + k)).toNat 2))) ++
  sectBytes 0x14 128 ((List.range 128).flatMap (fun g => leBytes g 8 ++
    (List.range 180).flatMap (fun w => leBytes (ruleWord (gateShadow s g) w).toNat 4)))

/-- The digest of the active configuration (11 R299, R330). -/
def digestOf (s : State) : BitVec 256 := sha256 (digestImage s)

end Sys2Proof.Machine
end

