-- ==== Sys2Proof/Machine/BootPort.lean ====
section
/-! DEFINITION. The BOOT port (02 R35-R65; 12 R307; 13 R341): the bursts of a command of Gennal, and the port cycles in which they are
presented and answered. The table has no row for a port cycle of the BOOT port, so that a command runs all of its own in its step (log
entry 9). -/

namespace Sys2Proof.Machine

/-- The base of copy A, or of copy B directly above it (12 R307). -/
def copyBase (copyB : Bool) : Nat := Config.bootBase.toNat * 0x40000 + (if copyB then 0x40000 else 0)

/-- A burst of whole beats on the BOOT port: its address, its beats, and whether it gets no final response. -/
structure BootBurst where
  addr : Nat
  len  : Nat
  lost : Bool := false
  deriving DecidableEq, Repr

/-- The bursts of whole beats that carry `n` bytes from address `a`, none across a 256-B boundary (02 R40; DESIGN CHOICE, log entry
9). -/
def burstsOf (a n : Nat) : List BootBurst :=
  (List.range ((a + n + 255) / 256 - a / 256)).map (fun k =>
    let lo := max a (256 * (a / 256 + k))
    { addr := lo, len := (min (a + n) (256 * (a / 256 + k + 1)) - lo) / 32 })

/-- The bursts, of which that of index `lost` is never answered. -/
def loseBurst (lost : Option Nat) (l : List BootBurst) : List BootBurst :=
  l.zipIdx.map (fun b => { b.1 with lost := lost == some b.2 })

/-- The tags of a direction that are not outstanding, ascending. -/
def freeTags (busy : BitVec 4) : List Nat := (List.range 4).filter (fun t => !busy.getLsbD t)

/-- Every tag of a direction is held by a burst that timed out (13 R341). -/
def allLost (busy : BitVec 4) : Bool := busy == 15

/-- A request of Gennal (02 R65): PRIV 1, MID 63, DOM 0, CLS 0b11. -/
def bootRq (write : Bool) (b : BootBurst) (tag : Nat) : RqOut :=
  withParity { write := write, addr := BitVec.ofNat 48 b.addr, size := 5, len := BitVec.ofNat 3 (b.len - 1)
               tag := BitVec.ofNat 6 tag, priv := true, mid := 63, dom := 0, cls := 3, par := 0 }

/-! ### Responses -/

/-- A read beat with its parity (02 R37). -/
def rdOf (tag : Nat) (data : BitVec 256) (chk : BitVec 19) (last : Bool) (resp : BitVec 3) (detail : BitVec 4) : RdBeat :=
  let t : Tag := BitVec.ofNat 6 tag
  { tag := t, data := data, chk := chk, last := last, resp := resp, detail := detail
    par := BitVec.ofBool (oddParity (BitVec.ofBool last ++ resp ++ detail)) ++ BitVec.ofBool (oddParity t) }

/-- A write response with its parity (02 R37, R53). -/
def wrOf (tag : Nat) (resp : BitVec 3) (detail : BitVec 4) (beat : BitVec 3) : WrResp :=
  let t : Tag := BitVec.ofNat 6 tag
  { tag := t, resp := resp, detail := detail, beat := beat
    par := BitVec.ofBool (oddParity (resp ++ detail ++ beat)) ++ BitVec.ofBool (oddParity t) }

/-- The beat at offset `o` of a copy area as the port returns it (12 R307); the check bits of an uncorrectable one are free. -/
def imageBeat (i : CopyImage) (free : BitVec 19) (o tag : Nat) (last : Bool) : RdBeat :=
  let d : BitVec 256 := BitVec.ofNat 256 (imgLe i.bytes o 32)
  let r := match i.bad.find? (fun e => e.1 / 32 == o / 32) with
    | some e => e.2
    | none => (0, 0)
  let w := match i.ce.find? (fun e => e.1 / 32 == o / 32) with
    | some e => flipBit (d, encodeChk d) e.2.toNat
    | none => (d, encodeChk d)
  if i.ue.any (fun u => u / 32 == o / 32) then rdOf tag d free last r.1 r.2 else rdOf tag w.1 w.2 last r.1 r.2

/-! ### Port cycles (02 R36, R38, R43, R46, R56) -/

/-- A burst that is presented and not yet answered: its tag, and the beats that have gone, for a write, or come, for a read. -/
structure OpenBurst where
  tag   : Nat
  burst : BootBurst
  beats : Nat := 0
  deriving DecidableEq, Repr

/-- The port after a cycle that used a request credit and a beat credit, or not (02 R56). The responder returns one credit of each kind
in a cycle, up to 32 and 64 (DESIGN CHOICE, log entry 9). -/
def bootCredits (rq wd : Bool) (p : BootPort) : BootPort :=
  { p with rqCred := p.rqCred - rq.toNat + (if p.rqCred < 32 then 1 else 0)
           wdCred := p.wdCred - wd.toNat + (if p.wdCred < 64 then 1 else 0) }

/-- A cycle with its credit pulses. -/
def withPulses (p : BootPort) (c : BootCycle) : BootCycle :=
  { c with rqCrd := decide (p.rqCred < 32), wdCrd := decide (p.wdCred < 64) }

/-- The read request of a port cycle: the next burst, with the lowest free tag, under a request credit (02 R38, R46). -/
def nextBootRead (p : BootPort) (todo : List BootBurst) : Option (Nat × BootBurst) :=
  match todo, freeTags p.rtags with
  | b :: _, t :: _ => if 0 < p.rqCred then some (t, b) else none
  | _, _ => none

/-- The port cycles of a list of read bursts: bursts presented as credits and tags allow, answered one after the other from the cycle
after the request on, one beat in a cycle (DESIGN CHOICE, log entry 9); a lost burst keeps its tag. They end with the last answer, or
where every tag is held by a lost burst. -/
def runReads (beat : Nat → Nat → Bool → RdBeat) : Nat → BootPort → List BootBurst → List OpenBurst → List BootCycle × BootPort
  | 0, p, _, _ => ([], p)
  | n + 1, p, todo, out =>
    let live := out.find? (fun o => !o.burst.lost)
    if live.isNone && (todo.isEmpty || allLost p.rtags) then ([], p)
    else
      let rq := nextBootRead p todo
      let rd := live.map (fun o => (o, beat (o.burst.addr + 32 * o.beats) o.tag (o.beats + 1 == o.burst.len)))
      let c : BootCycle := withPulses p { rq := rq.map (fun b => bootRq false b.2 b.1), rd := rd.map (·.2) }
      let tags := match rq with
        | some b => setBit p.rtags b.1 true
        | none => p.rtags
      let tags := match rd with
        | some (o, b) => if b.last then setBit tags o.tag false else tags
        | none => tags
      let out := match rd with
        | some (o, b) => if b.last then out.filter (· != o) else out.map (fun x => if x = o then { o with beats := o.beats + 1 } else x)
        | none => out
      let out := match rq with
        | some b => out ++ [{ tag := b.1, burst := b.2 }]
        | none => out
      let r := runReads beat n { bootCredits rq.isSome false p with rtags := tags } (if rq.isSome then todo.tail else todo) out
      (c :: r.1, r.2)

/-- The write that a port cycle begins: the next burst, with the lowest free tag, under a request credit and credits for all of its
beats, the write-data channel being free (02 R43, R46). -/
def nextBootWrite (p : BootPort) (todo : List BootBurst) (busy : Bool) : Option (Nat × BootBurst) :=
  match todo, freeTags p.wtags with
  | b :: _, t :: _ => if 0 < p.rqCred ∧ b.len ≤ p.wdCred ∧ ¬ busy then some (t, b) else none
  | _, _ => none

/-- The port cycles of a list of write bursts: beat 0 with its request, the others without a gap (02 R43), the responses `resp` of the
bursts one after the other, from the cycle after the last beat on (DESIGN CHOICE, log entry 9). -/
def runWrites (beat : Nat → Bool → WdOut) (resp : BootBurst → BitVec 3 × BitVec 4 × BitVec 3) :
    Nat → BootPort → List BootBurst → List OpenBurst → List BootCycle × BootPort
  | 0, p, _, _ => ([], p)
  | n + 1, p, todo, out =>
    let going := out.find? (fun o => decide (o.beats < o.burst.len))
    let live := out.find? (fun o => !o.burst.lost && decide (o.burst.len ≤ o.beats))
    if live.isNone && going.isNone && (todo.isEmpty || allLost p.wtags) then ([], p)
    else
      let rq := nextBootWrite p todo going.isSome
      let now : Option OpenBurst := match going, rq with
        | some o, _ => some o
        | none, some b => some { tag := b.1, burst := b.2 }
        | none, none => none
      let c : BootCycle := withPulses p {
        rq := rq.map (fun b => bootRq true b.2 b.1)
        wd := now.map (fun o => beat (o.burst.addr + 32 * o.beats) (o.beats + 1 == o.burst.len))
        wr := live.map (fun o => wrOf o.tag (resp o.burst).1 (resp o.burst).2.1 (resp o.burst).2.2) }
      let tags := match rq with
        | some b => setBit p.wtags b.1 true
        | none => p.wtags
      let tags := match live with
        | some o => setBit tags o.tag false
        | none => tags
      let out := match live with
        | some o => out.filter (· != o)
        | none => out
      let out := match now with
        | some o => out.filter (fun x => x.tag != o.tag) ++ [{ o with beats := o.beats + 1 }]
        | none => out
      let r := runWrites beat resp n { bootCredits rq.isSome now.isSome p with wtags := tags } (if rq.isSome then todo.tail else todo) out
      (c :: r.1, r.2)

/-- Port cycles enough for a list of bursts: each beat, each burst's request and response, and the initial allowance. -/
def cyclesFor (l : List BootBurst) : Nat := (l.map (fun b => b.len + 4)).sum + 72

/-! ### The port of a command -/

/-- The BOOT port comes into service: both counters 0 and no tag outstanding (02 R59). -/
def openBoot (s : State) : State :=
  if s.boot.en then s else { s with boot := { s.boot with en := true, rqCred := 0, wdCred := 0, rtags := 0, wtags := 0 } }

/-- A new command of Gennal on the BOOT port. -/
def freshBoot (s : State) : State := { openBoot s with boot := { (openBoot s).boot with cycles := [] } }

/-- The ccyc in which the next port cycle of the BOOT port begins: with a CFG_CLK period, one after another (02 R36, R65). -/
def nextBootCycle (s : State) : Nat :=
  match s.boot.cycles.getLast? with
  | some c => max (alignUp s.clk.now 4) (c.ccyc + 4)
  | none => alignUp s.clk.now 4

/-- Port cycles pass (log entry 9). -/
def passCycles (r : List BootCycle × BootPort) (s : State) : State :=
  { s with boot := { r.2 with
      cycles := s.boot.cycles ++ r.1.zipIdx.map (fun c => { c.1 with ccyc := nextBootCycle s + 4 * c.2 }) } }

/-! ### What answers no request (02 R58, R61, R62) -/

/-- A tag of a direction is outstanding on the BOOT port. -/
def bootTagOut (s : State) (write : Bool) (tag : Tag) : Bool :=
  decide (tag.toNat < 4) && (if write then s.boot.wtags else s.boot.rtags).getLsbD tag.toNat

/-- The port cycle of a response that answers no burst of the command: of a read its one beat, with free data. -/
def strayCycle (k : Nat) (write : Bool) (tag : Tag) (resp : BitVec 3) (ok : Bool) (s : State) : State :=
  let fix := fun (p : BitVec 2) => if ok then p else ~~~ p
  let rd := rdOf tag.toNat (Config.freeBeat k) (Config.freeChk k) true resp 0
  let wr := wrOf tag.toNat resp 0 0
  passCycles ([if write then { wr := some { wr with par := fix wr.par } } else { rd := some { rd with par := fix rd.par } }], s.boot)
    (takeFree s)

/-- A response or a credit pulse of the BOOT port that no command awaits (02 R65): a response of a burst that was given up frees its tag,
another is on an unknown tag (R61), one of which parity fails is dropped (R62), a pulse at a full counter too (R58). DESIGN CHOICE: the
PORT of the entries, for which the BOOT port has no number, is a free value, and CH is 0 (log entry 9). -/
def bootStray (x : BootStray) (s : State) : State :=
  let k := s.free
  let n := (Config.freePort k).toNat
  let dir := fun (w : Bool) => if w then dirWrite else dirRead
  match x with
  | .response w tag resp =>
    let out := bootTagOut s w tag
    let s := strayCycle k w tag resp true s
    if !out then logUnknown n (dir w) tag resp s
    else if w then { s with boot := { s.boot with wtags := setBit s.boot.wtags tag.toNat false } }
    else { s with boot := { s.boot with rtags := setBit s.boot.rtags tag.toNat false } }
  | .parity w tag =>
    let out := bootTagOut s w tag
    logParity n (dir w) tag (if out then some 0 else none) (strayCycle k w tag 0 false s)
  | .credit wd =>
    let c : BootCycle := { rqCrd := !wd, wdCrd := wd }
    let s := passCycles ([c], s.boot) (takeFree s)
    if (if wd then decide (64 ≤ s.boot.wdCred) else decide (32 ≤ s.boot.rqCred)) then
      setCause 1 (logFault { kind := 5, port := BitVec.ofNat 3 n, detail := if wd then 1 else 0 } s)
    else if wd then { s with boot := { s.boot with wdCred := s.boot.wdCred + 1 } }
    else { s with boot := { s.boot with rqCred := s.boot.rqCred + 1 } }

/-- What arrives on the BOOT port after the answers to a command. -/
def bootStrays (l : List BootStray) (s : State) : State := l.foldl (fun s x => bootStray x s) s

/-- The beats of these bursts that the check of each OK beat corrects, once each (06 R178, Table 6.3): of those answered. -/
def fixedBeats (base : Nat) (i : CopyImage) (l : List BootBurst) (c : List BootCycle) : List (Nat × BitVec 9) :=
  (i.ce.map (fun e => (e.1 / 32, e.2))).eraseDups.filter (fun e =>
    i.ue.all (fun u => u / 32 != e.1) && i.bad.all (fun b => b.1 / 32 != e.1) &&
    l.any (fun b => !b.lost && decide (b.addr ≤ base + 32 * e.1) && decide (base + 32 * e.1 < b.addr + 32 * b.len) &&
      c.any (fun x => x.rq.any (fun q => q.addr.toNat == b.addr))))

/-- Gennal reads the bursts `l` of the copy areas from address `base` on, where the port returns the image `i` (12 R307). -/
def readBursts (base : Nat) (i : CopyImage) (l : List BootBurst) (s : State) : State :=
  let r := runReads (fun a tag last => imageBeat i (Config.freeChk s.free) (a - base) tag last) (cyclesFor l) s.boot l []
  bootStrays i.stray ((fixedBeats base i l r.1).foldl (fun s _ => countCorrection 0 s) (takeFree (passCycles r s)))

/-- Gennal reads `n` bytes from address `a` of the area at `base` (12 R307). -/
def readBoot (base a n : Nat) (i : CopyImage) (lost : Option Nat) (s : State) : State :=
  readBursts base i (loseBurst lost (burstsOf a n)) s

/-- A write beat, with the bytes of CMD_BUF from `o` (13 R341). -/
def bootBeat (m : Memory) (o : Nat) (last : Bool) : WdOut :=
  let d : BitVec 256 := BitVec.ofNat 256 (readBytes m o 32)
  wdOf d (encodeChk d) (BitVec.allOnes 32) last false

/-- Gennal writes the bursts `l` from CMD_BUF to the area that begins at address `a` (13 R341). -/
def writeBursts (a : Nat) (resp : BootBurst → BitVec 3 × BitVec 4 × BitVec 3) (l : List BootBurst) (s : State) : State :=
  passCycles (runWrites (fun x last => bootBeat s.cmd.buf (x - a) last) resp (cyclesFor l) s.boot l []) s

/-- The bursts that lie in the first `p` bytes from `a`. -/
def burstsWithin (a p : Nat) (l : List BootBurst) : List BootBurst := l.filter (fun b => decide (b.addr + 32 * b.len ≤ a + p))

/-- The others. -/
def burstsBeyond (a p : Nat) (l : List BootBurst) : List BootBurst := l.filter (fun b => decide (a + p < b.addr + 32 * b.len))

/-- The bytes of some bursts. -/
def burstBytes (l : List BootBurst) : Nat := (l.map (fun b => 32 * b.len)).sum

end Sys2Proof.Machine
end

