-- ==== Sys2Proof/Machine/Boot.lean ====
section
/-! DEFINITION. Loading a configuration (12 R312-R322, R328, R329), commits of the routes (15 R384-R386), the end of boot
(13 R345; 04 R115) and BOOT, BOOT_PORT_TIMEOUT. -/

namespace Sys2Proof.Machine

/-! ### Routes -/

/-- A line whose route changes from `old` to `new` gains an owner or new settings: its detector is loaded (03 R69). DESIGN CHOICE: a line
that goes from one owner to another does not gain an owner (log entry 46). -/
def loadsDetector (old new : Word) : Bool :=
  (bit new 31 && !bit old 31) || xor (linePol old) (linePol new) || xor (lineAsync old) (lineAsync new)

/-- A line's route in force has changed from `old` to `new` (03 R69, Table 3.2): the counter and flag are cleared, and an edge
handled in this ccyc belongs to the new setting. -/
def commitLine (n : Nat) (old new : Word) (s : State) : State :=
  if old = new then s
  else
    let l := line s n
    let clear := { l with cnt := 0, ovf := false, use := .none }
    let s := setLine n (if loadsDetector old new then loadDetector s new clear else clear) s
    if l.use = .none then s else handleEdge s n

/-- All three route tables become these (15 R384). -/
def applyRoutes (r : Routes) (s : State) : State :=
  let keys := (r.req.map (·.1) ++ s.routes.req.map (·.1)).eraseDups
  keys.foldl (fun t n => commitLine n (get 0 s.routes.req n) (get 0 r.req n) t) { s with routes := r }

/-- A commit of all three route tables (15 R384, R385). -/
def commitRoutes (s : State) : State := applyRoutes (oldShadow s) s

/-! ### Structural sections (12 R312-R318) -/

/-- The body and COUNT of a section as loaded. -/
def bodyOf (l : List Section) (t : Nat) : List Byte × Nat :=
  match l.find? (fun x => x.type == t) with
  | some x => (x.body, x.count)
  | none => ([], 0)

/-- The structural sections of a copy. -/
def structural (b : List Byte) : List Section :=
  [(1, 16), (2, 8), (3, 16), (4, 16), (5, 16), (6, 24)].map (fun p =>
    let q := findSect (sections b) p.1
    { type := p.1, count := q.2, body := imgSlice b q.1 (p.2 * q.2) })

/-- The structural sections of SAFE (Table 12.11); the CASCADE fields that the table does not give are 0 (log entry 28). -/
def safeSections : List Section :=
  [{ type := 1, count := 0, body := [] }, { type := 2, count := 1, body := List.replicate 8 0 },
   { type := 3, count := 8, body := List.replicate 128 0 }, { type := 4, count := 0, body := [] },
   { type := 5, count := 0, body := [] },
   { type := 6, count := 1, body := [0, 0, 0, 0, 1] ++ List.replicate 19 0 }]

/-- CLASS in its encoding (02 Table 2.3). -/
def clsOf (n : Nat) : Cls := if n = 0 then .bulk else if n = 1 then .timed else .urgent

/-- A channel with the CH_CFG and CH_ENTRY of a PARTITION record (Table 12.4). -/
def chanOfRecord (b : List Byte) (r : Nat) (c : Channel) : Channel :=
  let f := imgByte b (r + 2)
  { c with
    assigned := true, cls := clsOf (f % 4), prio := BitVec.ofNat 3 (f / 4), prioSh := BitVec.ofNat 3 (f / 4)
    priv := imgBit b (r + 2) 5, pin := imgBit b (r + 2) 6, autoResume := imgBit b (r + 2) 7
    mid := BitVec.ofNat 6 (imgByte b (r + 3)), homeDom := BitVec.ofNat 7 (imgByte b (r + 4))
    entry := { sys := imgBit b (r + 15) 7, addr := BitVec.ofNat 48 (imgLe b (r + 8) 6) } }

/-- A channel without a record (04 R113). -/
def unassign (c : Channel) : Channel :=
  { c with
    assigned := false, cls := .bulk, prio := 0, prioSh := 0, priv := false, pin := false, autoResume := false, mid := 0
    homeDom := 0, entry := {} }

/-- PARTITION. -/
def loadPartition (l : List Section) (s : State) : State :=
  let p := bodyOf l 1
  (List.range p.2).foldl (fun s i => updChan (imgLe p.1 (16 * i) 2 % 1024) (chanOfRecord p.1 (16 * i)) s)
    { s with chans := tableOf {} (s.chans.map (fun e => (e.1, unassign e.2))) }

/-- The START channels (Table 12.4). -/
def startList (l : List Section) : List Nat :=
  let p := bodyOf l 1
  (List.range p.2).filterMap (fun i => if imgBit p.1 (16 * i + 3) 6 then some (imgLe p.1 (16 * i) 2 % 1024) else none)

/-- MOVERS. -/
def loadMovers (l : List Section) (s : State) : State :=
  let p := bodyOf l 2
  { s with ures := BitVec.ofNat 7 (imgByte p.1 0), tres := BitVec.ofNat 7 (imgByte p.1 1) }

/-- A port with the settings of its PORTS record (Table 12.5). -/
def portOfRecord (b : List Byte) (r : Nat) (p : Port) : Port :=
  { p with
    used := imgBit b r 0, ratio := imgBit b r 1, stream := imgBit b r 2, fetch := imgBit b r 3
    thrBulk := BitVec.ofNat 16 (imgLe b (r + 8) 2), thrTimed := BitVec.ofNat 16 (imgLe b (r + 10) 2)
    thrUrgent := BitVec.ofNat 16 (imgLe b (r + 12) 2) }

/-- PORTS. -/
def loadPorts (l : List Section) (s : State) : State :=
  portRange.foldl (fun s n => updPort n (portOfRecord (bodyOf l 3).1 (16 * n)) s) s

/-- A window of a record (Table 12.6). -/
def windowOfRecord (b : List Byte) (r : Nat) : Window :=
  { base := BitVec.ofNat 48 (imgLe b r 6), limit := BitVec.ofNat 48 (imgLe b (r + 8) 6)
    port := BitVec.ofNat 3 (imgByte b (r + 6)), dom := BitVec.ofNat 7 (imgLe b (r + 6) 2 / 16) }

/-- DOMAIN_MAP and NV_WINDOWS. -/
def loadWindows (l : List Section) (s : State) : State :=
  let p := bodyOf l 4
  let q := bodyOf l 5
  { s with
    wins := (List.range p.2).map (fun i => windowOfRecord p.1 (16 * i))
    nvwins := (List.range q.2).map (fun i => windowOfRecord q.1 (16 * i)) }

/-- The guyline side with the settings of a CASCADE record (Table 12.7). -/
def cascadeOf (b : List Byte) (g : Guyline) : Guyline :=
  { g with
    role := match imgByte b 2 % 4 with
      | 0 => .standalone
      | 1 => .master
      | _ => .member
    instId := BitVec.ofNat 16 (imgLe b 0 2), instCount := BitVec.ofNat 17 (imgLe b 4 4), upUsed := imgBit b 2 2, dnUsed := imgBit b 2 3
    syncPer := BitVec.ofNat 16 (imgLe b 8 2), tsBound := BitVec.ofNat 8 (imgByte b 10)
    lead := BitVec.ofNat 23 (imgLe b 12 3), tail := BitVec.ofNat 24 (imgLe b 16 3) }

/-- CASCADE (Table 12.7). An unused guyline port is driven to 0 and has no link; a correction of ridge time under way ends
(11 R280). -/
def loadCascade (l : List Section) (s : State) : State :=
  let g := cascadeOf (bodyOf l 6).1 s.gl
  { s with
    clk := { s.clk with slewRem := 0, adj := 0, stepTo := none }
    gl := { g with upLink := if g.upUsed then g.upLink else {}, dnLink := if g.dnUsed then g.dnLink else {} } }

/-! ### Program image and runtime sections (12 R319-R322) -/

/-- `n` bytes of a copy from `o` written to a RAM from `a` upward. -/
def writeImage (b : List Byte) (o a : Nat) (n : Nat) (m : Memory) : Memory :=
  (List.range n).foldl (fun m i => writeByte m (a + i) (b[o + i]?.getD 0xFF)) m

/-- PROGRAM: every word that no chunk writes is 0. -/
def loadProgram (b : List Byte) (s : State) : State :=
  let p := findSect (sections b) 7
  { s with prog := (chunks b p.1 p.2).foldl (fun m c => writeImage b (c.1 + 8) c.2.1 (8 * c.2.2) m) [] }

/-- The route shadows of a copy (Table 12.8). -/
def imageRoutes (b : List Byte) : Routes :=
  let w := fun r => BitVec.ofNat 32 (imgLe b r 4)
  { req := tableOf 0 ((recordsOf b 0x10).map (fun r => (imgLe b r 2 % 512, (w r &&& 0x0FFF0000) ||| 0x80000000)))
    evt := tableOf 0 ((recordsOf b 0x11).map (fun r => (imgLe b r 2 % 4096, w r &&& evtMask)))
    glob := tableOf 0 ((recordsOf b 0x12).map (fun r => (imgByte b r % 64, (w r &&& 0x01FF0000) ||| 0x80000000))) }

/-- The pegs of a copy. -/
def imagePegs (b : List Byte) : Table (BitVec 16) :=
  tableOf 0 ((recordsOf b 0x13).flatMap (fun r =>
    (List.range 64).map (fun k => (pegKey (imgByte b r % 8) k, BitVec.ofNat 16 (imgLe b (r + 8 + 2 * k) 2)))))

/-- The gate rules of a copy; a tile without a record has deny-all rules (R322). -/
def imageGates (b : List Byte) : Table (Table Word) :=
  tableOf [] ((recordsOf b 0x14).map (fun r => (imgByte b r % 128,
    tableOf 0 ((List.range 180).map (fun w => (w, BitVec.ofNat 32 (imgLe b (r + 8 + 4 * w) 4)))))))

/-- The structural sections take effect. -/
def loadStructural (l : List Section) (s : State) : State :=
  loadCascade l (loadWindows l (loadPorts l (loadMovers l (loadPartition l { s with bs := { s.bs with loaded := l } }))))

/-- A line's route is loaded: its counter and flag stay, as 03 Table 3.2 does not list it, but of a line that has no owner any more they are
0 (03 R66); its detector is loaded (03 R69). -/
def loadLine (n : Nat) (old new : Word) (s : State) : State :=
  if old = new then s
  else
    let l := line s n
    let l := if bit new 31 then l else { l with cnt := 0, ovf := false, use := .none }
    setLine n (if loadsDetector old new then loadDetector s new l else l) s

/-- All three route tables are loaded. -/
def loadRoutes (r : Routes) (s : State) : State :=
  let keys := (r.req.map (·.1) ++ s.routes.req.map (·.1)).eraseDups
  keys.foldl (fun t n => loadLine n (get 0 s.routes.req n) (get 0 r.req n) t) { s with routes := r }

/-- A copy is loaded (R328). -/
def loadImage (b : List Byte) (s : State) : State :=
  let s := loadProgram b (loadStructural (structural b) s)
  let s := loadRoutes (imageRoutes b) { s with shadow := imageRoutes b, shadowOld := none }
  { s with
    pegSh := imagePegs b, pegAct := imagePegs b
    gate := { s.gate with shadow := imageGates b }
    dig := { s.dig with epoch := BitVec.ofNat 32 (imgEpoch b) } }

/-- The configuration of SAFE (R329, Table 12.11). -/
def loadSafe (s : State) : State :=
  let s := loadStructural safeSections { s with prog := [] }
  let s := loadRoutes {} { s with shadow := {}, shadowOld := none }
  { s with pegSh := [], pegAct := [], gate := { s.gate with shadow := [] }, dig := { s.dig with epoch := 0 } }

/-! ### Host writes of the present ccyc (01 R21) -/

/-- A 32-bit half of a 48-bit address from another address: the upper 16 bits, or the lower 32. -/
def takeHalf (hi : Bool) (new old : BitVec 48) : BitVec 48 :=
  if hi then (fld new 32 16 : BitVec 16) ++ (fld old 0 32 : BitVec 32) else (fld old 32 16 : BitVec 16) ++ (fld new 0 32 : BitVec 32)

/-- The RW fields of word `o` of a channel's block from another context, if the host could write them. -/
def keepChan (o : Nat) (h c : Channel) : Channel :=
  if o = 2 then if h.assigned && c.assigned then { c with autoResume := h.autoResume, pin := h.pin, prioSh := h.prioSh } else c
  else if h.st != .idle && h.st != .halted && h.st != .parked then c
  else if o = 4 ∨ o = 5 then
    if h.assigned && c.assigned then { c with entry :=
      { sys := if o = 5 then h.entry.sys else c.entry.sys, addr := takeHalf (o == 5) h.entry.addr c.entry.addr } } else c
  else if 8 ≤ o ∧ o < 16 then
    let j := (o - 8) / 2
    { c with a := setReg4 c.a j (takeHalf (o % 2 == 1) (reg4 h.a j) (reg4 c.a j)) }
  else if 16 ≤ o ∧ o < 20 then { c with l := setReg4 c.l (o - 16) (reg4 h.l (o - 16)) }
  else c

/-- The RW fields of word `o` of a port's block from another port. -/
def keepPort (o : Nat) (h p : Port) : Port :=
  if o = 1 then { p with thrTimed := h.thrTimed, thrBulk := h.thrBulk }
  else if o = 2 then { p with thrUrgent := h.thrUrgent }
  else p

/-- The RW fields of the register at word offset `w` as `h` holds them. -/
def keepWord (h : State) (w : Nat) (s : State) : State :=
  if 0x1000 ≤ w ∧ w < 0x1800 then
    let n := (w - 0x1000) / 0x100
    let o := w % 0x100
    if 0x40 ≤ o ∧ o < 0x80 then { s with pegSh := put 0 s.pegSh (pegKey n (o - 0x40)) (get 0 h.pegSh (pegKey n (o - 0x40))) }
    else updPort n (keepPort o (port h n)) s
  else if 0x4000 ≤ w ∧ w < 0x4200 then { s with shadow := { s.shadow with req := put 0 s.shadow.req (w - 0x4000) (get 0 h.shadow.req (w - 0x4000)) } }
  else if 0x4400 ≤ w ∧ w < 0x4440 then { s with shadow := { s.shadow with glob := put 0 s.shadow.glob (w - 0x4400) (get 0 h.shadow.glob (w - 0x4400)) } }
  else if 0x5000 ≤ w ∧ w < 0x6000 then { s with shadow := { s.shadow with evt := put 0 s.shadow.evt (w - 0x5000) (get 0 h.shadow.evt (w - 0x5000)) } }
  else if 0x20000 ≤ w ∧ w < 0x28000 then
    let ch := (w - 0x20000) / 32
    updChan ch (keepChan (w % 32) (chan h ch)) s
  else s

/-- An engine update from `h` to `s` leaves the RW fields that the host has written in the present ccyc at the host's values. -/
def hostKeeps (h s : State) : State := s.cfg.wrote.foldl (fun s w => keepWord h w s) s

/-! ### The end of boot -/

/-- A port is closed and opened again: no credit, no request (02 R59, R60). -/
def reopenPort (p : Port) : Port :=
  { p with
    en := p.used, rqCred := 0, wdCred := 0, rqUsed := 0, rqRet := 0, wdUsed := 0, wdRet := 0, reqs := [], ages := [], holder := none, grant := none, presents := none
    decidedAt := none, burst := none, rqOut := none, wdOut := none }

/-- START channels become READY, or PARKED where they touch a closed domain (04 R115, 14 R369). -/
def startAll (s : State) : State :=
  (startList s.bs.loaded).foldl (fun s ch =>
    let s := startChannel ch s
    if touchesClosed s ch then updChan ch (fun c => { c with st := .parked, parkSrc := true }) s else s) s

/-- Tiles, ports, digest pending, START channels (13 R345 steps 5 and 6; R339). -/
def openUp (census : BitVec 128) (s : State) : State :=
  startAll (mapPorts reopenPort (loadTiles census { s with dig := { s.dig with recPend := true } }))

/-- The boot status of a loaded copy (12 R332). -/
def bootStatus (img : Option (Bool × List Byte)) (ra rb : Nat × Nat) (b : BootStat) : BootStat :=
  { b with
    safe := img.isNone, done := true, reasonA := BitVec.ofNat 4 ra.1, reasonB := BitVec.ofNat 4 rb.1
    errA := BitVec.ofNat 18 ra.2, errB := BitVec.ofNat 18 rb.2
    active := match img with
      | some (c, _) => if c then 1 else 0
      | none => 2
    seq := match img with
      | some (_, i) => BitVec.ofNat 32 (imgSeq i)
      | none => 0
    trail := match img with
      | some (_, i) => imgTrailer i
      | none => 0 }

/-- What a boot comes to (R326): the copy loaded, the copies whose load was tried, in order, the reasons of both, and whether BOOT_COPY
is set. -/
structure BootPlan where
  image : Option (Bool × List Byte)
  loads : List Bool
  ra    : Nat × Nat
  rb    : Nat × Nat
  other : Bool
  deriving DecidableEq, Repr

/-- Record 0xC for a copy. -/
def BootPlan.failed (p : BootPlan) (copyB : Bool) : BootPlan :=
  if copyB then { p with rb := (12, 0) } else { p with ra := (12, 0) }

/-- The pseudocode of R326, from the two validations and the two loads. -/
def bootPlan (a b la lb : CopyImage) (va vb : Nat × Nat) : BootPlan :=
  let base : BootPlan := { image := none, loads := [], ra := va, rb := vb, other := false }
  let bytes := fun (c : Bool) => if c then b.bytes else a.bytes
  let ok := fun (c : Bool) => if c then loadOk b lb else loadOk a la
  if va.1 = 0 ∧ vb.1 = 0 then
    let c := decide (imgSeq a.bytes < imgSeq b.bytes)
    if ok c then { base with image := some (c, bytes c), loads := [c] }
    else
      let p := { base.failed c with loads := [c, !c] }
      if ok !c then { p with image := some (!c, bytes !c), other := true } else { p.failed !c with other := true }
  else if va.1 = 0 ∨ vb.1 = 0 then
    let c := decide (vb.1 = 0)
    let base := { base with loads := [c] }
    if ok c then { base with image := some (c, bytes c), other := true } else { base.failed c with other := true }
  else base

/-! ### The reads of a boot -/

/-- Gennal reads a copy area whole (12 R307); these bursts of it time out (13 R341). -/
def readArea (copyB : Bool) (i : CopyImage) (lost : List Addr) (s : State) : State :=
  readBursts (copyBase copyB) i
    ((burstsOf (copyBase copyB) 0x40000).map (fun b => { b with lost := lost.contains (BitVec.ofNat 48 b.addr) })) s

/-- The reads of a boot: copy A, then copy B, then each area again that is loaded, in the order of the loads (12 R307, R326, R328). -/
def bootReads (a b la lb : CopyImage) (p : BootPlan) (s : State) : State :=
  let lost := s.cmd.tmos
  let s := readArea true b lost (readArea false a lost (openBoot s))
  p.loads.foldl (fun s c => readArea c (if c then lb else la) [] s) s

/-- The boot ends as planned (13 R345 steps 4 to 6). -/
def endBoot (p : BootPlan) (census : BitVec 128) (s : State) : State :=
  let s := if p.other then setCause 49 s else s
  let s := match p.image with
    | some (_, b) => loadImage b s
    | none => setCause 48 (loadSafe s)
  let s := openUp census (loadAllDetectors { s with bs := bootStatus p.image p.ra p.rb s.bs })
  let s := clearCaptures (if s.pwr.inWake then noteSet 0x141 29 s else s)
  { s with
    pwr := { s.pwr with st := .run, wake := s.pwr.wake || s.pwr.inWake, inWake := false }
    cmd := { s.cmd with busy := false, job := .none, tmoA := none, tmoB := none, tmos := [] } }

/-- The timeout that counts against a copy (12 R323): its own; where the bursts of copy A that timed out hold all four read tags, nothing of
copy B can be read, and its first burst counts (DESIGN CHOICE, log entry 9). -/
def bootTmo (s : State) (copyB : Bool) : Option Nat :=
  if !copyB then s.cmd.tmoA
  else if 4 ≤ (s.cmd.tmos.filter (fun a => decide (a.toNat < copyBase true))).length then some (s.cmd.tmoB.getD 0)
  else s.cmd.tmoB

/-- BOOT (12 R326; 13 R345): while a boot is in progress and CORE is powered. -/
def execBoot (a b loadA loadB : CopyImage) (census : BitVec 128) (lock : Option (BitVec 256)) (s : State) :
    Host.Outcome State Fault Refusal :=
  .next (if s.pwr.st = .waking ∧ s.cmd.job = .boot ∧ s.pwr.pswAck then
    let p := bootPlan a b loadA loadB (validate { image := a, tmo := bootTmo s false } lock)
      (validate { image := b, tmo := bootTmo s true } lock)
    endBoot p census (bootReads a b loadA loadB p s)
  else s)

/-- The earlier of two timeouts of one copy. -/
def earlierTmo (x : Option Nat) (o : Nat) : Option Nat :=
  match x with
  | some y => some (min y o)
  | none => some o

/-- The burst of a copy area that holds the byte at offset `o`. -/
def areaBurst (copyB : Bool) (o : Nat) : Addr := BitVec.ofNat 48 (copyBase copyB + o / 256 * 256)

/-- BOOT_PORT_TIMEOUT (13 R341): the tag stays outstanding; a command whose burst has no final response fails with 0x0C, a boot counts
reason 0x2. In a boot the burst is presented in its place in the pass over its copy, with the reads of BOOT (12 R326; log entry 9). -/
def execBootPortTimeout (copyB : Bool) (offset : BitVec 18) (s : State) : Host.Outcome State Fault Refusal :=
  let m := s.cmd
  .next (match m.job with
  | .boot =>
    if s.pwr.st = .waking ∧ s.pwr.pswAck then
      let s := if m.tmoA = none ∧ m.tmoB = none then freshBoot s else openBoot s
      let a := areaBurst copyB offset.toNat
      { s with cmd := { m with
        tmoA := if copyB then m.tmoA else earlierTmo m.tmoA offset.toNat
        tmoB := if copyB then earlierTmo m.tmoB offset.toNat else m.tmoB
        tmos := if m.tmos.contains a then m.tmos else m.tmos ++ [a] } }
    else s
  | .bootRead _ _ _ => finish 12 {} s
  | .bootWrite _ _ _ none _ => finish 12 {} s
  | _ => s)

end Sys2Proof.Machine
end

