-- ==== Sys2Proof/Machine/Power.lean ====
section
/-! DEFINITION. Power states, wake sequences and resets (14 R347-R362). -/

namespace Sys2Proof.Machine

/-! ### Leaving RUN -/

/-- A channel is at rest (14 R349). -/
def chanQuiet (c : Channel) : Bool :=
  c.st != .ready && c.st != .running && c.st != .aborting && !c.parkPend &&
  !(c.st == .waiting && (c.waitOn == .fenced || c.waitOn == .fetch))

/-- The condition of R349, as the ccyc ends. DESIGN CHOICE: a pulse that goes high in the next ccyc, of a logical event raised or a global
event arrived in this one, is in progress. A logical event without a line does not hinder the entry: it is delivered, and passed to the
guyline, in the ccyc after w of R351, the next in which CORE is clocked (03 R78, R80; log entry 46). -/
def quiet (s : State) : Bool :=
  s.chans.all (fun e => chanQuiet e.2) && noTagsAtAll s && s.boot.rtags == 0 && s.boot.wtags == 0 &&
  s.ev.lines.all (fun e => e.2.queue.isEmpty && e.2.last.all (fun t => decide (t < s.clk.now))) &&
  !s.cmd.busy && s.pegCommits.isEmpty && !s.com.armed && s.pd.quiesces.isEmpty

/-- DOZE is entered: the PIN record of R369 is made. What the present ccyc delivered is delivered in it alone, a global event that arrived
in it included, whose pulse on a line comes in the ccyc after and so hinders the entry (03 R78, R80). DESIGN CHOICE: a logical event raised
in it is kept for the ccyc after w (log entries 31 and 46). -/
def enterDoze (s : State) : State :=
  clearCaptures { s with
   ev := { s.ev with delivered := [], gdelivered := 0 }
   pwr := { s.pwr with
    st := .doze, dozeClosed := s.pd.closed
    dozePins := tableOf none ((List.range 128).map (fun n =>
      (n, (chansWhere s (fun ch c => c.st == .waiting && c.pin && touches s ch n)).head?))) } }

/-- CORE loses its power: what RETAIN does not keep returns to its reset value, the shadows become the values in force
(Table 14.5, column RETAIN). A freeze lasts, and the mismatches of the ccyc of entry still have their effects (17 R401); the ring stops
are held in reset (10 R248). -/
def coreOff (s : State) : State :=
  clearCaptures { s with
    lines := tableOf {} (s.lines.map (fun e => (e.1, { pin := e.2.pin })))
    loadTill := 0, shadow := s.routes, shadowOld := none, ev := {}, chans := [], before := [], movers := [], ures := 0, tres := 0, ports := []
    pegSh := s.pegAct, pegCommits := [], cmd := { busy := false, job := .none }, boot := {}, srst := {}
    mon := { s.mon with safEn := false, safEvt := 0, eccCnt := 0, eccSrc := 0, eccThr := 0x0100, eccNow := 0 }
    gate := { shadow := s.gate.shadow }
    com := {}
    dig := { s.dig with recPend := false, users := [] } }

/-- CORE has no power (14 Table 14.1, R353). -/
def coreIsOff (s : State) : Bool :=
  match s.pwr.st with
  | .retain | .offRdy | .off => true
  | .waking => !s.pwr.pswAck && s.pwr.dozeW.isNone
  | .run | .entering | .doze => false

/-- With TM 1 the block ignores its own isolation (17 R409): what the outputs of CORE show while it has no power is then stated nowhere,
and free (log entry 16). -/
def freeCoreOutputs (s : State) : State :=
  if s.test.tm then
    let f := representable (Config.freeState s.free)
    takeFree { s with
      ports := tableOf {} (portRange.map (fun n =>
        (n, { en := (port f n).en, rqOut := (port f n).rqOut, wdOut := (port f n).wdOut })))
      boot := { en := f.boot.en, cycles := f.boot.cycles }
      ev := { s.ev with lines := tableOf {} (f.ev.lines.map (fun e => (e.1, { last := e.2.last }))) }
      gate := { s.gate with rstN := f.gate.rstN, tx := f.gate.tx } }
  else s

/-- The outputs of CORE at their isolation values (03 Table 3.13, 10 R248). -/
def isolateCore (s : State) : State :=
  { s with
    ports := [], boot := {}, ev := { s.ev with lines := tableOf {} (s.ev.lines.map (fun e => (e.1, { e.2 with last := none }))) }
    gate := { s.gate with rstN := false, tx := [] } }

/-- The outputs of AO at their isolation values (03 Table 3.13, 14 Table 14.2, 15 R378). -/
def isolateAo (s : State) : State :=
  { s with
    irq := { s.irq with out := 0 }
    pd := { s.pd with ackOut := Config.ackTie, nackOut := 0 }
    pwr := { s.pwr with pswEn := true, sramRet := false, offRdy := true }
    gl := { s.gl with
      upLink := { s.gl.upLink with txc := bit Config.glTie 0, txd := fld Config.glTie 1 4 }
      dnLink := { s.gl.dnLink with txc := bit Config.glTie 5, txd := fld Config.glTie 6 4 } }
    cfg := { s.cfg with ack := false, rdata := 0, err := false, rpar := false } }

/-- The steps of R352, to RETAIN or on to OFF_RDY. -/
def enterRetain (off : Bool) (s : State) : State :=
  let pwr := { s.pwr with
    st := if off then .offRdy else .retain, pswEn := false, pswAck := false, sramRet := true, offRdy := off, dozeW := none }
  freeCoreOutputs { coreOff s with pwr := pwr }

/-- LOW_POWER_ENTRY (R349, R352): the engine is quiet as the present ccyc ends. -/
def execLowPowerEntry (s : State) : Host.Outcome State Fault Refusal :=
  let t := endCore s
  let e := { t with pwr := { t.pwr with lowAt := some t.clk.now } }
  .next (if s.pwr.st = .entering ∧ coreOn s ∧ quiet t then
    match s.pwr.target.toNat with
    | 1 => enterDoze e
    | 2 => enterRetain false e
    | 3 => enterRetain true e
    | _ => s
  else s)

/-! ### A command spoiled by the host (13 R335) -/

/-- The command in progress reads or writes CMD_BUF. -/
def usesBuf (j : Job) : Bool :=
  match j with
  | .pegUpdate _ _ fromBuf => fromBuf
  | .bootRead _ _ toBuf => toBuf
  | .bootWrite _ _ _ _ _ => true
  | _ => false

/-- The command in progress reads GATE_STAGE. -/
def usesStage (j : Job) : Bool :=
  match j with
  | .gateUpdate _ _ => true
  | _ => false

/-- A table with the entries whose key is named taken from another. -/
def named {α : Type} [DecidableEq α] (d : α) (p : Nat → Bool) (old new : Table α) : Table α :=
  tableOf d (old.filter (fun e => !p e.1) ++ new.filter (fun e => p e.1))

/-- The priorities of another state. -/
def freePrios (f : State) : Table (BitVec 3) := tableOf 0 (f.chans.map (fun e => (e.1, e.2.prioSh)))

/-- The pegs, and with PRIO the priorities, that a spoiled PEG_UPDATE leaves, whether the shadows have been taken or not. -/
def spoilPegs (wrap : Nat) (ports : BitVec 8) (f s : State) : State :=
  let mine := fun k => ports.getLsbD (k / 64)
  { s with
    pegSh := named 0 mine s.pegSh f.pegSh
    pegCommits := s.pegCommits.map (fun c => if c.wrap ≠ wrap then c else { c with
      spoilt := some (freePrios f), taken := c.taken.map (fun x => (named 0 mine x.1 f.pegSh, freePrios f)) }) }

/-- The tile and the shadow that a spoiled GATE_UPDATE leaves. -/
def spoilGate (g : Nat) (f s : State) : State :=
  let t := tile s g
  let u := tile f g
  let s := if t.chkOn then setTile g { t with rules := u.rules, staging := u.staging, apply := u.apply } s else s
  setGateShadow g (gateShadow f g) s

/-- The rules and EN of a tile of the ring that a spoiled RESTRUCTURE leaves. -/
def spoilTile (u t : Tile) : Tile := { setEn u.en t with rules := u.rules, staging := u.staging, oldRules := none }

/-- The configuration that a spoiled RESTRUCTURE leaves. -/
def spoilConfig (f s : State) : State :=
  { s with
    routes := f.routes, shadow := f.shadow, pegSh := f.pegSh, pegAct := f.pegAct, wins := f.wins, nvwins := f.nvwins
    ures := f.ures, tres := f.tres, chans := f.chans, movers := f.movers, ports := f.ports, prog := f.prog
    gate := { s.gate with shadow := f.gate.shadow, recs := f.gate.recs, map := f.gate.map }
    gl := { s.gl with
      role := f.gl.role, instId := f.gl.instId, instCount := f.gl.instCount, upUsed := f.gl.upUsed, dnUsed := f.gl.dnUsed
      syncPer := f.gl.syncPer, tsBound := f.gl.tsBound, lead := f.gl.lead, tail := f.gl.tail }
    dig := { s.dig with epoch := f.dig.epoch, recd := f.dig.recd, recPend := f.dig.recPend }
    tiles := tableOf {} (s.tiles.map (fun e => (e.1, if present s e.1 then spoilTile (tile f e.1) e.2 else e.2)))
    bs := f.bs }

/-- The own frames of a port, with those of TYPE 7 taken from another (11 Table 11.3). -/
def spoilRolls (l f : Link) : Link :=
  { l with own := l.own.filter (fun x => x.type != 7) ++ f.own.filter (fun x => x.type == 7) }

/-- The round that a spoiled ROLLCALL leaves: its record, its ROLL that waits, and the rehash of the instance's own answer. -/
def spoilRoll (f s : State) : State :=
  { s with
    roll := f.roll
    dig := { s.dig with users := s.dig.users.filter (· != .roll) ++ f.dig.users.filter (· == .roll) }
    gl := { s.gl with dnLink := spoilRolls s.gl.dnLink f.gl.dnLink } }

/-- CFG_EPOCH and REC_PEND that a spoiled change of configuration leaves (13 R339). -/
def spoilEpoch (f s : State) : State := { s with dig := { s.dig with epoch := f.dig.epoch, recPend := f.dig.recPend } }

/-- What the command in progress may have done, where its effects are undefined. A park that a quiesce also asks for stands. -/
def spoilEffects (f s : State) : State :=
  match s.cmd.job with
  | .park ch =>
    if s.pd.quiesces.any (fun q => q.chans.contains ch) then s
    else updChan ch (fun c => { c with parkPend := c.parkPend && (chan f ch).parkPend }) s
  | .pegUpdate wrap ports _ => spoilEpoch f (spoilPegs wrap ports f s)
  | .gateUpdate g _ => spoilEpoch f (spoilGate g f s)
  | .digest => { s with dig := { s.dig with act := f.dig.act } }
  | .softReset => if f.srst.start.isSome then s else { s with srst := { s.srst with start := none } }
  | .bootRead verify _ toBuf =>
    if !verify then spoilConfig f s
    else if toBuf then { s with cmd := { s.cmd with buf := f.cmd.buf } } else s
  | .verifyWait _ _ _ => s
  | .restructureWait _ _ _ _ _ => spoilConfig f s
  | .rollcall _ => spoilRoll f s
  | .selftest t _ _ => if bit t 2 then { s with chans := f.chans } else s
  | .bootWrite _ _ _ _ _ => s
  | .boot => s
  | .none => s

/-- Host software breaks R335 while a command is in progress: its effects are undefined and its result is lost, both free
values (log entry 45). The command ends; host accesses that it held back follow. -/
def spoil (s : State) : State :=
  if s.cmd.job = .none ∨ s.cmd.job = .boot then s
  else
    let f := representable (Config.freeState s.free)
    let s := spoilEffects f (takeFree s)
    releaseHeld (setCause (if f.cmd.done then 52 else 53)
      { s with cmd := { s.cmd with busy := false, done := f.cmd.done, err := !f.cmd.done, code := f.cmd.code, res := f.cmd.res, job := .none } })

/-! ### Targets -/

/-- TARGET's code of a low-power state (Table 14.7). -/
def targetCode : LowTarget → BitVec 2
  | .doze => 1 | .retain => 2 | .off => 3

/-- A write of DOZE, RETAIN or OFF to TARGET (R349, R352, R354). Where CORE runs a command, that is spoiled (13 R335). -/
def writeTargetLow (t : LowTarget) (s : State) : State :=
  let s := if coreOn s then spoil s else s
  let s' := { s with pwr := { s.pwr with target := targetCode t } }
  match s.pwr.st with
  | .run => { s' with pwr := { s'.pwr with st := .entering } }
  | .entering => s'
  | .doze => if t = .doze then s else enterRetain (t == .off) s'
  | .retain => if t = .off then clearCaptures { s' with pwr := { s'.pwr with st := .offRdy, offRdy := true } } else s
  | _ => s

/-- PWR_TARGET_LOW. -/
def execPwrTargetLow (t : LowTarget) (s : State) : Host.Outcome State Fault Refusal :=
  .next (hostAccess (.pwrTargetLow t) (writeTargetLow t) s)

/-! ### Wake (R351, R353) -/

/-- A wake reaches AO. -/
def beginWake (s : State) : State :=
  let s := { s with pwr := { s.pwr with target := 0 } }
  match s.pwr.st with
  | .doze => { s with pwr := { s.pwr with
      st := .waking, dozeW := some (s.clk.coreBase + alignUp (coreCycle s + 8) 128) } }
  | .retain => { s with pwr := { s.pwr with st := .waking, pswEn := true, inWake := true }, cmd := { busy := true, job := .none } }
  | .offRdy => { s with pwr := { s.pwr with st := .waking, pswEn := true, inWake := true }, cmd := { busy := true, job := .none } }
  | _ => s

/-- A write of RUN to TARGET (R349, R351, R353). -/
def writeTargetRun (s : State) : State :=
  match s.pwr.st with
  | .entering => { s with pwr := { s.pwr with target := 0, st := .run } }
  | _ => beginWake s

/-- PWR_TARGET_RUN. -/
def execPwrTargetRun (s : State) : Host.Outcome State Fault Refusal :=
  .next (hostAccess .pwrTargetRun writeTargetRun s)

/-- WAKE_AT (R351): ridge time reaches PWR_WAKE. -/
def execWakeAt (s : State) : Host.Outcome State Fault Refusal :=
  .next (if (s.pwr.st = .doze ∨ s.pwr.st = .retain ∨ s.pwr.st = .offRdy) ∧ s.pwr.wakeAtEn ∧
      s.pwr.wakeT.toNat ≤ s.clk.ridge.toNat then
    beginWake (if hostWon 0x140 s then s else { s with pwr := { s.pwr with wakeAtEn := false } })
  else s)

/-- The channels touching a domain closed during DOZE are parked (R351 step 1, R369). -/
def dozeParks (s : State) : State :=
  let shut := s.pd.closed &&& ~~~ s.pwr.dozeClosed
  (chansWhere s (fun ch c => (c.st == .ready || c.st == .running || c.st == .waiting) &&
    (List.range 128).any (fun n => shut.getLsbD n && touches s ch n))).foldl
    (fun s ch => if stopping (chan s ch) then s else enterPark ch true s) s

/-- Instants and deadlines that have passed (R351 step 2). -/
def dozeInstants (s : State) : State :=
  let s := (chansWhere s (fun _ c => c.st == .waiting && c.waitOn == .instant && !stopping c &&
    decide (c.dl.toNat ≤ s.clk.ridge.toNat))).foldl (fun s ch => completeWait ch s) s
  (chansWhere s (fun _ c => c.st == .waiting)).foldl (fun s ch => reachDeadline ch s) s

/-- Channels WAITING on a line with a pending count (R351 step 3). -/
def dozeLines (s : State) : State :=
  (chansWhere s (fun _ c => c.st == .waiting && c.waitOn == .line && !stopping c && (line s c.waitArg.toNat).cnt != 0)).foldl
    (fun s ch =>
      let n := (chan s ch).waitArg.toNat
      let l := line s n
      if l.cnt = 0 then s else completeWait ch (setLine n { l with cnt := l.cnt - 1 } s)) s

/-- DOZE_EXIT (R351): ccyc w, with a census of the ring (10 R268). DEDUCED: the stops that answer it are those of the last census,
since DOZE resets no ring stop (log entry 32). -/
def execDozeExit (s : State) : Host.Outcome State Fault Refusal :=
  .next (match s.pwr.dozeW with
  | some w =>
    if s.pwr.st = .waking ∧ w ≤ s.clk.now then
      let s := clearCaptures (takeCensus s.gate.map (loadAllDetectors (dozeLines (dozeInstants (dozeParks s)))))
      { s with pwr := { s.pwr with st := .run, dozeW := none } }
    else s
  | none => s)

/-- Steps 3 to 5 of Table 14.3: CH_CFG, CH_ENTRY, MOVER_CFG and the ports as last loaded, tiles, START channels. -/
def finishWake (census : BitVec 128) (s : State) : State :=
  let l := s.bs.loaded
  let s := loadAllDetectors (loadPorts l (loadMovers l (loadPartition l s)))
  let s := clearCaptures (startAll (mapPorts reopenPort (loadTiles census s)))
  noteSet 0x141 29 (openBoot { s with
    pwr := { s.pwr with st := .run, wake := true, inWake := false }
    cmd := { s.cmd with busy := false } })

/-- An uncorrectable word ends the wake in a full boot (R355; 09 Table 9.10). -/
def fallBack (detail : BitVec 4) (addr : Addr) (s : State) : State :=
  let s := setCause 5 (logFault { kind := 8, detail := detail, addr := addr } (clearCaptures s))
  noteSet 0x141 28 { s with pwr := { s.pwr with fallback := true }, cmd := { s.cmd with busy := true, job := .boot } }

/-- The words of a memory that a wake corrects, counted at its check point (06 R178, Table 6.3). -/
def corrections (src : BitVec 3) (n : BitVec 16) (s : State) : State :=
  (List.range n.toNat).foldl (fun s _ => countCorrection src s) s

/-- AO finds CORE_PSW_ACK at 1 (R353, R355, R358): a wake goes on, with the words that its check corrects; a boot that waits for CORE may
run. Core cycle 0 begins at the next CFG_CLK edge, or now where one is now (01 R25; log entry 23). -/
def ackSampled (census : BitVec 128) (found : WakeCheck) (s : State) : State :=
  if s.pwr.st = .waking ∧ ¬ s.pwr.pswAck ∧ s.pwr.pswEn then
    let s := { s with
      pwr := { s.pwr with pswAck := true, sramRet := false, offRdy := false }
      clk := { s.clk with coreBase := alignUp s.clk.now 4 } }
    if s.cmd.job = .boot then s
    else
      let s := corrections 4 found.fixKept (corrections 3 found.fixStore s)
      match found.ue with
      | none => finishWake census s
      | some (.store o) => fallBack 3 (o.setWidth 48) s
      | some (.retained o) => fallBack 4 o s
  else s

/-- CORE_PSW_ACK rises: AO samples it at the TICK edge that begins the present ccyc, or at the next one (R348). -/
def execCorePswAck (census : BitVec 128) (found : WakeCheck) (s : State) : Host.Outcome State Fault Refusal :=
  .next (if s.pwr.st = .off then s
  else if s.clk.now % 2 = 1 then { s with pwr := { s.pwr with ackIn := some (census, found) } }
  else ackSampled census found s)

/-- AO samples a CORE_PSW_ACK that rose before the present TICK edge (R348). -/
def sampleAck (s : State) : State :=
  match s.pwr.ackIn with
  | some (c, f) => ackSampled c f { s with pwr := { s.pwr with ackIn := none } }
  | none => s

/-! ### Resets and supplies (R356-R358) -/

/-- The state after a reset: what lies outside the reset stays (the clock of the run, the inputs, the gate tiles, the test
wrapper, the model's own fields), every domain with PD_REQ 1 is closed (03 R88), and a boot is in progress. -/
def afterReset (s : State) : State :=
  closeRequested { State.reset with
    clk := { now := s.clk.now, coreBase := alignUp s.clk.now 4, porstAt := s.clk.porstAt }
    mon := { vmonPin := s.mon.vmonPin }
    lines := tableOf {} (s.lines.map (fun e => (e.1, { pin := e.2.pin })))
    pwr := { pswAck := s.pwr.pswAck, ackIn := s.pwr.ackIn }
    pd := { pin := s.pd.pin }
    tiles := s.tiles, test := s.test, free := s.free, pending := s.pending }

/-- PORST_N (Table 14.5, first column); with TM 1 the block ignores it (17 R409). -/
def execPorstN (s : State) : Host.Outcome State Fault Refusal :=
  .next (if s.test.tm then s
  else
    let r := afterReset s
    noteSet 0x141 31 { r with clk := { r.clk with porstAt := some s.clk.now } })

/-- SYSRST_N (Table 14.5, second column): the fault log, ridge time and the flags of PWR_STAT stay, SYS is set; with
TM 1 the block ignores it (17 R409), and PORST_N of the same ccyc takes precedence (R357). -/
def execSysrstN (s : State) : Host.Outcome State Fault Refusal :=
  .next (if s.pwr.st = .off ∨ s.test.tm ∨ s.clk.porstAt = some s.clk.now then s
  else
    let r := afterReset s
    noteSet 0x141 30 { r with
      flog := (sealCcyc s).flog
      clk := { r.clk with ridge := s.clk.ridge }
      pwr := { r.pwr with por := s.pwr.por, sys := true, wake := s.pwr.wake, fallback := s.pwr.fallback } })

/-- With TM 1 the outputs of AO are free while it has no power, as those of CORE (17 R409). -/
def freeAoOutputs (s : State) : State :=
  if s.test.tm then
    let f := representable (Config.freeState s.free)
    takeFree { s with
      irq := { s.irq with out := f.irq.out }
      pd := { s.pd with ackOut := f.pd.ackOut, nackOut := f.pd.nackOut }
      pwr := { s.pwr with pswEn := f.pwr.pswEn, sramRet := f.pwr.sramRet, offRdy := f.pwr.offRdy }
      gl := { s.gl with
        upLink := { s.gl.upLink with txc := f.gl.upLink.txc, txd := f.gl.upLink.txd }
        dnLink := { s.gl.dnLink with txc := f.gl.dnLink.txc, txd := f.gl.dnLink.txd } }
      cfg := { s.cfg with ack := f.cfg.ack, rdata := f.cfg.rdata, err := f.cfg.err, rpar := f.cfg.rpar } }
  else s

/-- SUPPLY_REMOVAL (R347, R356): OFF. Nothing of AO, CORE and SRAM remains; the outputs show their isolation values. -/
def execSupplyRemoval (s : State) : Host.Outcome State Fault Refusal :=
  .next (freeAoOutputs (freeCoreOutputs (isolateAo { afterReset s with
    pd := { pin := s.pd.pin }
    pwr := { st := .off, por := false, pswAck := false } })))

end Sys2Proof.Machine
end

