-- ==== Sys2Proof/Machine/Commits.lean ====
section
/-! DEFINITION. Commits of pegs and priorities (07 R202), commits at one instant (11 R303-R305), digests (11 R299; 13 R339),
and the pop of the fault log (09 Table 9.12). -/

namespace Sys2Proof.Machine

/-! ### PEG_COMMIT (07 R202) -/

/-- The commit wrap of a write in the present ccyc, as a core cycle. -/
def commitWrap (s : State) : Nat := alignUp (coreCycle s + 4) 128

/-- A write of PEG_COMMIT: it joins the commit that has its wrap, or forms one of its own. -/
def pegCommitWrite (ports : BitVec 8) (prio armed : Bool) (s : State) : State :=
  let ap := if armed then ports else 0
  let aq := armed && prio
  if ports = 0 ∧ prio = false then s
  else
    let w := commitWrap s
    if s.pegCommits.any (fun c => c.wrap == w) then
      { s with pegCommits := s.pegCommits.map (fun c =>
        if c.wrap = w then { c with ports := c.ports ||| ports, prio := c.prio || prio, armed := c.armed ||| ap, armedPrio := c.armedPrio || aq } else c) }
    else { s with pegCommits := s.pegCommits ++ [{ wrap := w, ports := ports, prio := prio, armed := ap, armedPrio := aq }] }

/-- A write of PEG_COMMIT takes effect. -/
def effPegCommit (ports : BitVec 8) (prio : Bool) (s : State) : State := if coreOn s then pegCommitWrite ports prio false s else s

/-- PEG_COMMIT. -/
def execPegCommit (ports : BitVec 8) (prio : Bool) (s : State) : Host.Outcome State Fault Refusal :=
  .next (hostAccess (.pegCommit ports prio) (effPegCommit ports prio) s)

/-- The PRIO shadows of all channels. -/
def prioShadows (s : State) : Table (BitVec 3) := tableOf 0 (s.chans.map (fun e => (e.1, e.2.prioSh)))

/-! ### The shadows that a commit takes -/

/-- The shadow pegs that a commit takes: against R305 free values, for the ports that the armed commit selects (07 R202). -/
def takePegs (s : State) (armed : BitVec 8) : Table (BitVec 16) :=
  let mine := fun (e : Nat × BitVec 16) => armed.getLsbD (e.1 / 64)
  tableOf 0 (s.pegSh.filter (fun e => !mine e) ++
    (mixTable [0xC000, 0x03FF] (s.free + 393216) s.com.snapP s.pegSh).filter mine)

/-- The shadows that a commit takes at the end of ccyc w - 4. -/
def takeShadows (s : State) (c : PegCommit) : Table (BitVec 16) × Table (BitVec 3) :=
  (if c.armed = 0 then s.pegSh else takePegs s c.armed,
   match c.spoilt with
   | some q => q
   | none => if c.armedPrio then mixTable [0x7] (s.free + 524288) s.com.snapQ (prioShadows s) else prioShadows s)

/-- The shadows are taken at the end of ccyc w - 4: the ccyc that ends is core cycle `t`. -/
def takeAt (t : Nat) (s : State) : State :=
  if s.pegCommits.any (fun c => c.taken.isNone && decide (c.wrap ≤ t + 4)) then
    takeMany { s with pegCommits := s.pegCommits.map (fun c =>
      if c.taken.isNone ∧ c.wrap ≤ t + 4 then { c with taken := some (takeShadows s c) } else c) }
  else s

/-! ### The commit wrap -/

/-- One commit takes effect: the pegs of its ports, and with PRIO the priorities of all channels. -/
def applyPegs (c : PegCommit) (s : State) : State :=
  let t := match c.taken with
    | some t => t
    | none => takeShadows s c
  let s := (List.range 8).foldl (fun s n =>
    if c.ports.getLsbD n then
      (List.range 64).foldl (fun s k =>
        { s with pegAct := put 0 s.pegAct (pegKey n k) (get 0 t.1 (pegKey n k)) }) s
    else s) s
  if c.prio then
    (s.chans.map (·.1) ++ t.2.map (·.1)).foldl (fun s ch => updChan ch (fun c => { c with prio := get 0 t.2 ch }) s) s
  else s

/-- PEG_COMMIT_WRAP (07 R202): the commits whose wrap has come. A PEG_UPDATE completes at its wrap (13 Table 13.8). -/
def execPegCommitWrap (s : State) : Host.Outcome State Fault Refusal :=
  let due := s.pegCommits.filter (fun c => decide (c.wrap ≤ coreCycle s))
  .next (if coreOn s ∧ due ≠ [] then
    let s := due.foldl (fun s c => applyPegs c s)
      { s with pegCommits := s.pegCommits.filter (fun c => decide (coreCycle s < c.wrap)) }
    let s := match s.cmd.job with
      | .pegUpdate w _ _ => if w ≤ coreCycle s then finish 0 {} (bumpEpoch s) else s
      | _ => s
    settleArmed s
  else s)

/-! ### Commits at one instant (11 R303, R304) -/

/-- The first ccyc of tick `t` - 2 has not passed (11 R303); ticks begin at even ccyc (01 R25). -/
def armable (s : State) (t : BitVec 64) : Bool :=
  decide (s.clk.ridge.toNat + 2 < t.toNat) || (s.clk.ridge.toNat + 2 == t.toNat && s.clk.now % 2 == 0)

/-- Arm a commit, or miss it (11 R303). -/
def armCommit (t : BitVec 64) (e : Word) (s : State) : State :=
  if coreOn s ∧ ¬ s.com.armed ∧ armable s t then
    takeMany { s with com := { s.com with
      key := s.free, armed := true, t := t, ep := e, selL := s.com.sel, gatesL := s.com.gates, pegs := false, main := false, wrap := none
      snapR := s.shadow, snapP := s.pegSh, snapQ := prioShadows s } }
  else setCause 57 s

/-- The peg commit of an armed commit, in the first ccyc of tick T - 2 (11 Table 11.6). -/
def armedPegs (s : State) : State :=
  let sel := armedSel s
  let some' := fld sel 0 8 ≠ (0 : BitVec 8) ∨ bit sel 8 = true
  let s' := pegCommitWrite (fld sel 0 8) (bit sel 8) true s
  takeMany { s' with com := { s'.com with pegs := true, wrap := if some' then some (commitWrap s) else none } }

/-- The APPLY beat of a tile of a commit leaves: its pending shadow becomes the shadow (13 R339). -/
def commitTile (g : Nat) (s : State) : State :=
  let s := match get none s.gate.pendSh g with
    | some r => setPendShadow g none (setGateShadow g r s)
    | none => s
  sendApply g s

/-- The effects of tick T (11 Table 11.6); the commit then waits for the tiles that it asks to apply. -/
def armedMain (s : State) : State :=
  let sel := armedSel s
  let gates := armedGates s
  let due := gates &&& s.gate.map &&& BitVec.ofNat 128 (((List.range 128).filter (fun g => (tile s g).chkOn)).foldl (fun n g => n + 2 ^ g) 0)
  let s1 := { s with
    dig := { s.dig with epoch := s.com.ep, recPend := true }
    com := { s.com with main := true, tiles := due } }
  let s2 := if bit sel 9 then applyRoutes (armedRoutes s1) s1 else s1
  takeMany ((List.range 128).foldl (fun s g => if gates.getLsbD g then commitTile g s else s) s2)

/-- COMMIT_APPLY (11 R304): what the armed commit does by the present ccyc. -/
def execCommitApply (s : State) : Host.Outcome State Fault Refusal :=
  .next (if coreOn s ∧ s.com.armed then
    let s := if ¬ s.com.pegs ∧ s.com.t.toNat ≤ s.clk.ridge.toNat + 2 then armedPegs s else s
    let s := if ¬ s.com.main ∧ s.com.t.toNat ≤ s.clk.ridge.toNat then armedMain s else s
    settleArmed s
  else s)

/-! ### Digests (11 R299; 13 R339) -/

/-- A rehash is asked of the SHA-256 unit, which serves one user at a time (13 R346). -/
def startRehash (u : ShaUser) (s : State) : State := { s with dig := { s.dig with users := s.dig.users ++ [u] } }

/-- DIGEST_REC_UPDATE: Gennal records the digest after the last effect of a change, once the SHA-256 unit, which serves one user at a
time, has no other (13 R346). -/
def execDigestRecUpdate (s : State) : Host.Outcome State Fault Refusal :=
  .next (if coreOn s ∧ s.dig.recPend ∧ s.dig.users = [] ∧ ¬ (s.com.armed ∧ s.com.main) then
    { s with dig := { s.dig with recd := digestOf s, recPend := false } }
  else s)

/-! ### FLOG_POP (09 Table 9.12) -/

/-- FLOG_POP takes effect. -/
def effFlogPop (pop : Bool) (s : State) : State := if pop ∧ s.pwr.st ≠ .off then popLog s else s

/-- FLOG_POP. -/
def execFlogPop (pop : Bool) (s : State) : Host.Outcome State Fault Refusal :=
  .next (hostAccess (.flogPop pop) (effFlogPop pop) s)

end Sys2Proof.Machine
end

