-- ==== Sys2Proof/Machine/Found.lean ====
section
/-! DEFINITION. Errors in on-block memories (06 R178, Table 6.3; 14 R355) and HALT_ENTRY (09 R226), whose operand also says what a read of
such a memory finds. -/

namespace Sys2Proof.Machine

/-- A list of bytes with word `w` replaced, if it has that word. -/
def setBodyWord (b : List Byte) (w : Nat) (v : Word) : List Byte :=
  if 4 * w + 4 ≤ b.length then b.take (4 * w) ++ leBytes v.toNat 4 ++ b.drop (4 * w + 4) else b

/-- Word `w` of the records of the structural section `t` holds a free value (01 Table 1.4): it acts at once where the block works from the
record, the windows and the cascade, and at the next wake from RETAIN where that loads the record (14 Table 14.3). -/
def freeRecord (t w : Nat) (v : Word) (s : State) : State :=
  let l := s.bs.loaded.map (fun x => if x.type = t then { x with body := setBodyWord x.body w v } else x)
  let s := { s with bs := { s.bs with loaded := l } }
  match t with
  | 4 => loadWindows l s
  | 5 => loadWindows l s
  | 6 => { s with gl := cascadeOf (bodyOf l 6).1 s.gl }
  | _ => s

/-- A word of the retained configuration holds free values (14 R355: "the fields of that word are undefined"). -/
def freeKept (w : KeptWord) (s : State) : State :=
  let v := Config.freeWord s.free
  takeFree (match w with
  | .record t w => freeRecord t.toNat w.toNat v s
  | .reqRoute n => { s with routes := { s.routes with req := put 0 s.routes.req n.toNat (v &&& reqMask) } }
  | .evtRoute e => { s with routes := { s.routes with evt := put 0 s.routes.evt e.toNat (v &&& evtMask) } }
  | .globIn g => { s with routes := { s.routes with glob := put 0 s.routes.glob g.toNat (v &&& globMask) } }
  | .peg n k => { s with pegAct := put 0 s.pegAct (n.toNat * 64 + k.toNat) (fld v 0 16 &&& pegMask) }
  | .gateRule t w => { s with gate := { s.gate with
      shadow := put [] s.gate.shadow t.toNat (put 0 (get [] s.gate.shadow t.toNat) w.toNat (v &&& ruleMask w.toNat)) } }
  | .epoch => { s with dig := { s.dig with epoch := v } }
  | .digestRec => { s with dig := { s.dig with recd := Config.freeBeat s.free } })

/-- The bits that flip in the beat of index `k` that channel `ch` has in staging, after its entry check (06 R178): the code word as it
then stands. -/
def flipStaged (ch k : Nat) (d : BitVec 256) (x : BitVec 19) (s : State) : State :=
  updChan ch (fun c => { c with run := c.run.map (fun r => { r with
    staged := r.staged.zipIdx.map (fun e => if e.2 = k then { e.1 with data := d, chk := x } else e.1) }) }) s

/-- What the check of an on-block memory word finds in RUN (06 R178, Table 6.3): a correction, counted at its check point, an
uncorrectable word of the retained configuration (14 R355; 09 Table 9.10, MEM_UE, at an offset that no rule gives: log entry 6), or an
error in staging, which only the rebuild stage finds. -/
def foundWord (ch : Nat) (e : MemErr) (s : State) : State :=
  match e with
  | .fixedContext => countCorrection 2 s
  | .fixedStore => countCorrection 3 s
  | .fixedKept => countCorrection 4 s
  | .kept w => freeKept w (setCause 5 (logFault { kind := 8, detail := 4, addr := Config.freeAddr s.free } s))
  | .staged k d x => flipStaged ch k.toNat d x s

/-- HALT_ENTRY: the halt of a held fault, or the error that a read of an on-block memory finds (04 R94, R106; 06 R178). -/
def execHaltEntry (ch : Chan) (source : HaltSource) (s : State) : Host.Outcome State Fault Refusal :=
  .next (if !coreOn s then s
  else match source with
    | .held => enterHeld ch.toNat s
    | .storeWord data => badStoreWord ch.toNat data s
    | .contextWord w => badContextWord ch.toNat w s
    | .found e => foundWord ch.toNat e s)

end Sys2Proof.Machine
end

