-- ==== Sys2Proof/Machine/Guyline.lean ====
section
/-! DEFINITION. Ridge time and the guyline cascade (11): links and frames, alignment, global events, commits and roll calls
across instances. A row for a frame that arrives stands for its arrival tick, in which its SOF leaves the receive FIFO (11 R288). -/

namespace Sys2Proof.Machine

/-- AO is powered. -/
def aoOn (s : State) : Bool := s.pwr.st != .off

/-- The number of the present tick since the start of the run (01 R25). -/
def tickNow (s : State) : Nat := s.clk.now / 2

/-! ### Links (11 R285-R288) -/

/-- Nibble `k` of a frame and its CRC: the SOF 0xD, the 32 nibbles of the body, low first, an idle nibble (11 R285, R286). -/
def frameNibble (body : BitVec 112) (crc : BitVec 16) (k : Nat) : BitVec 4 :=
  if k = 0 then 0xD else if k ≤ 32 then fld (crc ++ body) (4 * (k - 1)) 4 else 6

/-- The guyline port downstream (1) or upstream (0). -/
def linkOf (s : State) (down : Bool) : Link := if down then s.gl.dnLink else s.gl.upLink
/-- Replace a guyline port. -/
def setLink (down : Bool) (l : Link) (s : State) : State :=
  if down then { s with gl := { s.gl with dnLink := l } } else { s with gl := { s.gl with upLink := l } }
/-- The port is in use (11 R283). -/
def linkUsed (s : State) (down : Bool) : Bool := if down then s.gl.dnUsed else s.gl.upUsed

/-- Queue an own frame. -/
def queueOwn (down : Bool) (f : Frame) (s : State) : State :=
  if linkUsed s down then
    let l := linkOf s down
    setLink down { l with own := l.own ++ [f] } s
  else s

/-- The counters of GL_CNT advance, but where the host has written the register in this ccyc (01 R21). -/
def glCount (f : Guyline → Guyline) (s : State) : State := if hostWon 0x1C0A s then s else { s with gl := f s.gl }

/-- Queue a frame to be forwarded; a full queue drops it (11 R288). -/
def forward (down : Bool) (f : Frame) (s : State) : State :=
  if linkUsed s down then
    let l := linkOf s down
    if l.fwd.length < 8 then setLink down { l with fwd := l.fwd ++ [f] } s
    else glCount (fun g => { g with drop := satAdd g.drop 1 }) s
  else s

/-- The body bits [111:0] of a frame (Table 11.2). -/
def frameBody (f : Frame) : BitVec 112 :=
  BitVec.ofNat 112 (f.type.toNat + flag32 4 f.bc + at32 8 f.src.toNat + at32 24 f.dst.toNat + at32 40 f.payload.toNat)

/-- TXD of a port in use in tick `t`: the nibble of the frame under way, or the idle nibble 0x6 (11 R285). -/
def nibbleAt (l : Link) (t : Nat) : BitVec 4 :=
  match l.last with
  | some (f, crc) => if t < l.freeAt then frameNibble (frameBody f) crc (t + 34 - l.freeAt) else 6
  | none => 6

/-- The nibble that leaves the receive FIFO `k` ticks on: of the frame under reception, or the idle nibble of a link that is up. -/
def rxNibble (l : Link) (k : Nat) : BitVec 4 := l.rx[k]?.getD (if l.up then 6 else 0)

/-- The signals of a port in the present ccyc (11 R282, R283): TXC is TICK inverted, and an unused port drives 0. DESIGN CHOICE: the FIFO
holds the nibbles of three ticks, the far end's clock is in phase with TXC, and an absent link gives 0 (log entry 26). -/
def driveLink (used : Bool) (now : Nat) (l : Link) : Link :=
  if used then { l with txc := now % 2 == 1, txd := nibbleAt l (now / 2), rxc := l.up && now % 2 == 1, rxd := rxNibble l 3
                        fifo := [rxNibble l 0, rxNibble l 1, rxNibble l 2] }
  else { l with txc := false, txd := 0, rxc := false, rxd := 0, fifo := [] }

/-- The signals of both guyline ports. -/
def driveLinks (s : State) : State :=
  { s with gl := { s.gl with upLink := driveLink s.gl.upUsed s.clk.now s.gl.upLink
                             dnLink := driveLink s.gl.dnUsed s.clk.now s.gl.dnLink } }

/-- A TICK edge on the receive side: the FIFO gives its next nibble. -/
def shiftLink (l : Link) : Link := { l with rx := l.rx.tail }

/-- The nibbles of a frame: SOF, body (11 R285, R286). -/
def frameNibbles (f : Frame) : List (BitVec 4) :=
  let body := frameBody f
  (List.range 33).map (frameNibble body (crc16 body))

/-- A port receives nibbles, of which the first leaves the FIFO in the present tick. -/
def receiveNibbles (down : Bool) (l : List (BitVec 4)) (s : State) : State :=
  if linkUsed s down then driveLinks (setLink down { linkOf s down with rx := l } s) else s

/-- A frame arrives (11 R288). -/
def receive (down : Bool) (f : Frame) (s : State) : State := receiveNibbles down (frameNibbles f) s

/-- The 128 bits of the 32 nibbles of a body, low nibble first. -/
def bodyOfNibbles (l : List (BitVec 4)) : BitVec 128 :=
  BitVec.ofNat 128 (l.foldr (fun x n => x.toNat + 16 * n) 0)

/-- A received body is bad: its CRC fails, or its TYPE is reserved (11 R287, Table 11.3). -/
def bodyBad (b : BitVec 128) : Bool :=
  let t : BitVec 4 := fld b 0 4
  crc16 (fld b 0 112) != fld b 112 16 || t == 0 || decide (9 ≤ t.toNat)

/-- The bad frames among received nibbles: outside a frame a nibble other than 0x6 and 0xD is a code error, which counts as one (11 R285,
R287; log entry 26); a frame cut short is none yet. -/
def badFrames : Nat → List (BitVec 4) → Nat
  | 0, _ => 0
  | _, [] => 0
  | n + 1, x :: l =>
    if x = 6 then badFrames n l
    else if x = 0xD then (if 32 ≤ l.length ∧ bodyBad (bodyOfNibbles (l.take 32)) then 1 else 0) + badFrames n (l.drop 32)
    else 1 + badFrames n l

/-- The order in which ready frames start, by TYPE (11 R288). -/
def frameRank (t : BitVec 4) : Nat :=
  match t.toNat with
  | 4 => 1 | 5 => 1 | 6 => 2 | 1 => 3 | 3 => 4 | 2 => 5 | 7 => 6 | _ => 7

/-- A frame with this TYPE, payload and DST, sent by the instance itself. -/
def ownFrame (s : State) (t : BitVec 4) (bc : Bool) (dst : BitVec 16) (payload : Nat) : Frame :=
  { type := t, bc := bc, src := s.gl.instId, dst := dst, payload := BitVec.ofNat 72 payload }

/-- DEL of a GEVT sent now (11 R295): never lower than the one before. -/
def nextDel (s : State) : BitVec 64 :=
  let d := s.clk.ridge + s.gl.lead.setWidth 64
  if d.toNat < s.gl.lastDel.toNat then s.gl.lastDel else d

/-- The frame that the pending or broadcast mask makes ready on a port (11 R294, R295). -/
def maskFrame (s : State) (down : Bool) : Option Frame :=
  if s.gl.mask = 0 then none
  else match s.gl.role, down with
    | .master, true =>
      let d := nextDel s
      some (ownFrame s 5 true (fld d 0 16) (s.gl.mask.toNat + (fld d 16 8 : BitVec 8).toNat * 2 ^ 64))
    | .member, false => some (ownFrame s 4 false 0 s.gl.mask.toNat)
    | _, _ => none

/-- The fields of a frame that hold time at its SOF (11 Table 11.3); TURN is the ticks since the request (11 R290). -/
def stamp (s : State) (f : Frame) : Frame :=
  match f.type.toNat with
  | 1 => { f with payload := s.clk.ridge.setWidth 72 }
  | 2 => { f with payload := (fld s.clk.ridge 0 24 : BitVec 24).setWidth 72 }
  | 3 =>
    let t2 := fld f.payload 24 16
    { f with payload := ((BitVec.ofNat 16 (tickNow s) - t2) ++ (fld f.payload 0 24 : BitVec 24)).setWidth 72 }
  | _ => f

/-- Insert a mask armed at its delivery instant, in the order of DEL (11 R296). -/
def armMask (del mask : BitVec 64) (s : State) : State :=
  { s with gl := { s.gl with armed := insertBy (fun a b => decide (a.1.toNat < b.1.toNat)) (del, mask) s.gl.armed } }

/-- What sending a frame changes beside the port: the mask is cleared in the send tick, and the master arms what it
broadcasts. -/
def sent (f : Frame) (s : State) : State :=
  match f.type.toNat with
  | 4 => if s.gl.role = .member then { s with gl := { s.gl with mask := 0 } } else s
  | 5 =>
    if s.gl.role = .master then
      let d := nextDel s
      let s' := armMask d s.gl.mask s
      { s' with gl := { s'.gl with mask := 0, lastDel := d } }
    else s
  | _ => s

/-- The frame that a free port starts: the mask's, or the first by rank of the own and the forwarded frames. -/
def nextFrame (s : State) (down : Bool) : Option Frame :=
  let l := linkOf s down
  match maskFrame s down with
  | some f => some f
  | none => bestBy (fun a b => decide (frameRank a.type < frameRank b.type)) (l.own ++ l.fwd)

/-- A ROLLCALL completes once its ROLL is sent (13 R340). -/
def rollSent (f : Frame) (s : State) : State :=
  match s.cmd.job with
  | .rollcall r => if f.type = 7 then finish 0 r s else s
  | _ => s

/-- A port that is free starts a frame (11 R285, R288), which occupies it for 34 ticks, from its SOF in the present tick on. -/
def startFrame (down : Bool) (s : State) : State :=
  if aoOn s && linkUsed s down && decide ((linkOf s down).freeAt ≤ tickNow s) then
    match nextFrame s down with
    | none => s
    | some f =>
      let l := linkOf s down
      let g := stamp s f
      let own := if (maskFrame s down).isSome then l.own else l.own.erase f
      let fwd := if (maskFrame s down).isSome || l.own.contains f then l.fwd else l.fwd.erase f
      rollSent g (driveLinks (setLink down { l with own := own, fwd := fwd, freeAt := tickNow s + 34
                                                    last := some (g, crc16 (frameBody g)) } (sent g s)))
  else s

/-- FRAME_SEND: TXD moves at TICK edges (11 R282), so that the frame starts in the present ccyc if a tick begins with it, else at the next
TICK edge. -/
def execFrameSend (down : Bool) (s : State) : Host.Outcome State Fault Refusal :=
  .next (if s.clk.now % 2 = 0 then startFrame down s
  else if aoOn s ∧ linkUsed s down then setLink down { linkOf s down with start := true } s
  else s)

/-- A frame that waits for the TICK edge starts. -/
def startWaiting (down : Bool) (s : State) : State :=
  if (linkOf s down).start then startFrame down (setLink down { linkOf s down with start := false } s) else s

/-- The guyline ports at a TICK edge. -/
def tickLinks (s : State) : State :=
  startWaiting true (startWaiting false { s with gl := { s.gl with
    upLink := shiftLink s.gl.upLink, dnLink := shiftLink s.gl.dnLink } })

/-- GUYLINE_LINK_UP (11 R287). A member then measures its hop (11 R290). DESIGN CHOICE: its first ECHO_REQ is ready in this tick
(log entry 46). -/
def execGuylineLinkUp (down : Bool) (s : State) : Host.Outcome State Fault Refusal :=
  .next (if aoOn s && linkUsed s down && !(linkOf s down).up then
    let s := setLink down { linkOf s down with up := true } s
    if down then s else { s with gl := { s.gl with nextEcho := tickNow s, syncSeen := 0 } }
  else s)

/-- GUYLINE_LINK_DOWN (11 R287, R292): without its upstream link a member clears ACQ, sends no SYNC and runs freely. -/
def execGuylineLinkDown (down : Bool) (s : State) : Host.Outcome State Fault Refusal :=
  .next (if aoOn s && (linkOf s down).up then
    let s := setCause 54 (setLink down { linkOf s down with up := false } s)
    if down then s
    else { s with
      gl := { s.gl with
        acq := false, samples := [], dnLink := { s.gl.dnLink with own := s.gl.dnLink.own.filter (fun f => f.type != 1) } }
      clk := { s.clk with slewRem := 0, adj := 0, stepTo := none } }
  else s)

/-- GUYLINE_BAD_FRAME (11 R287): the bad frames among the nibbles are dropped and counted. -/
def execGuylineBadFrame (r : Reception) (s : State) : Host.Outcome State Fault Refusal :=
  let n := badFrames r.nibbles.length r.nibbles
  .next (if aoOn s && linkUsed s r.down then
    receiveNibbles r.down r.nibbles (if n = 0 then s else setCause 54 (glCount (fun g => { g with bad := satAdd g.bad n }) s))
  else s)

/-! ### Aligning to the parent (11 R290, R291) -/

/-- D: the smallest sample, 0 with none (Table 11.7, GL_DLY). -/
def hopDelay (s : State) : Nat := (least s.gl.samples).getD 0

/-- Ridge time steps to `v` in the next tick; a slew ends. -/
def stepRidge (v : BitVec 64) (s : State) : State :=
  { s with clk := { s.clk with stepTo := some v, slewRem := 0 } }

/-- Δ of a SYNC, over the integers. -/
def syncDelta (s : State) (tp : BitVec 64) : Int := (tp.toNat : Int) + hopDelay s - s.clk.ridge.toNat

/-- Δ saturated to ±127, two's complement (GL_STAT.OFFSET). -/
def satOffset (d : Int) : BitVec 8 := BitVec.ofInt 8 (max (-127) (min 127 d))

/-- The action of Table 11.4. -/
def syncAction (tp : BitVec 64) (s : State) : State :=
  let d := syncDelta s tp
  let target := BitVec.ofInt 64 ((tp.toNat : Int) + hopDelay s + 1)
  if !s.gl.acq then
    if s.gl.samples.length < 4 then s
    else
      let s' := if s.gl.acqOnce then setCause 55 s else s
      stepRidge target { s' with gl := { s'.gl with acq := true, acqOnce := true } }
  else
    let s' := if (s.gl.tsBound.toNat : Int) < d.natAbs ∨ 64 < d.natAbs then setCause 55 s else s
    if d.natAbs ≤ 1 then s'
    else if d.natAbs ≤ 64 then { s' with clk := { s'.clk with slewRem := d, slewAt := tickNow s, adj := 0 } }
    else stepRidge target (glCount (fun g => { g with steps := satAdd g.steps 1 }) s')

/-- SYNC on a member (11 R291). -/
def execSync (src : BitVec 16) (tp : BitVec 64) (s : State) : Host.Outcome State Fault Refusal :=
  .next (if aoOn s ∧ s.gl.role = .member then
    receive false { type := 1, bc := true, src := src, dst := 0, payload := tp.setWidth 72 }
      (syncAction tp { s with gl := { s.gl with offset := satOffset (syncDelta s tp), syncSeen := s.gl.syncSeen + 1 } })
  else s)

/-- SLEW_CORRECTION (Table 11.4): one correction, made at the next TICK edge, which also takes it off the remainder. -/
def execSlewCorrection (s : State) : Host.Outcome State Fault Refusal :=
  let d : Int := if 0 < s.clk.slewRem then 1 else -1
  .next (if aoOn s ∧ s.gl.role = .member ∧ s.clk.slewRem ≠ 0 ∧ s.clk.slewAt ≤ tickNow s ∧ s.clk.adj = 0 then
    { s with clk := { s.clk with adj := d, slewAt := s.clk.slewAt + 64 } }
  else s)

/-- SYNC_SEND (11 R291): a SYNC becomes ready once every SYNC_PER ticks. DESIGN CHOICE: the first one is ready at once (log entry
46). -/
def execSyncSend (s : State) : Host.Outcome State Fault Refusal :=
  .next (if aoOn s ∧ (s.gl.role = .master ∨ (s.gl.role = .member ∧ s.gl.acq)) ∧ s.gl.dnUsed ∧ s.gl.nextSync ≤ tickNow s then
    queueOwn true (ownFrame s 1 true 0 0) { s with gl := { s.gl with nextSync := tickNow s + s.gl.syncPer.toNat } }
  else s)

/-- ECHO_REQ_SEND (11 R290): every 256 ticks up to 4 samples, then once for every 8 SYNCs. -/
def execEchoReqSend (s : State) : Host.Outcome State Fault Refusal :=
  let due := if s.gl.samples.length < 4 then decide (s.gl.nextEcho ≤ tickNow s) else decide (8 ≤ s.gl.syncSeen)
  .next (if aoOn s && s.gl.role == .member && s.gl.upLink.up && due then
    queueOwn false (ownFrame s 2 false 0 0) { s with gl := { s.gl with nextEcho := tickNow s + 256, syncSeen := 0 } }
  else s)

/-- ECHO_REQ arrives (11 R290): an ECHO_RSP becomes ready, with the request's tick kept for TURN. -/
def execEchoReq (src : BitVec 16) (t1 : BitVec 24) (s : State) : Host.Outcome State Fault Refusal :=
  .next (if aoOn s ∧ s.gl.dnUsed then
    receive true { type := 2, bc := false, src := src, dst := 0, payload := t1.setWidth 72 }
      (queueOwn true (ownFrame s 3 false src (t1.toNat + (tickNow s % 65536) * 2 ^ 24)) s)
  else s)

/-- A sample of the hop, the ticks of an exchange with those of the far end taken off (11 R290): the last 16 count. -/
def addSample (x turn : Nat) (s : State) : State :=
  if turn ≤ x ∧ (x - turn) / 2 ≤ 2 ^ 22 then { s with gl := { s.gl with samples := ((x - turn) / 2 :: s.gl.samples).take 16 } }
  else s

/-- ECHO_RSP arrives (11 R290): only the member that it addresses uses it. -/
def execEchoRsp (dst : BitVec 16) (t1 : BitVec 24) (turn : BitVec 16) (s : State) : Host.Outcome State Fault Refusal :=
  .next (if aoOn s ∧ s.gl.role = .member then
    receive false { type := 3, bc := false, src := Config.parentId, dst := dst, payload := (turn ++ t1).setWidth 72 }
      (if dst = s.gl.instId then addSample (fld s.clk.ridge 0 24 - t1).toNat turn.toNat s else s)
  else s)

/-! ### Windowed instants (11 R289) -/

/-- The instant whose low `n` bits are `f` and which lies from A - 2^(n-1) to A + 2^(n-1) - 1, A being ridge time now. DESIGN CHOICE: one
that would lie below 0 is taken modulo 2^64, as the registers of ridge time count (log entry 37). -/
def widen {n : Nat} (s : State) (f : BitVec n) : BitVec 64 :=
  let d : BitVec n := f - s.clk.ridge.setWidth n
  s.clk.ridge + BitVec.ofInt 64 d.toInt

/-! ### Global events (11 R294-R297, R414) -/

/-- Deliver a mask (11 R295): its global events arrive in the present ccyc, at whose end their waiting channels are READY (03 R80);
with CORE not in RUN it is not delivered here. -/
def deliverMask (mask : BitVec 64) (s : State) : State :=
  if coreOn s then { s with ev := { s.ev with gdelivered := s.ev.gdelivered ||| mask } } else s

/-- A GEVT frame has been received and checked (11 R295): it is armed at its DEL, or, where ridge time had reached that in the tick before,
`last`, late and delivered in the next ccyc. DEDUCED: one whose DEL is the tick of the check is on time, as the lead of 11 R297 has it (log
entry 26). -/
def gevtChecked (last del mask : BitVec 64) (s : State) : State :=
  if del.toNat ≤ last.toNat then
    glCount (fun g => { g with late := satAdd g.late 1 }) { s with gl := { s.gl with lateDel := s.gl.lateDel ||| mask } }
  else armMask del mask s

/-- The GEVT frames whose check ends with the present tick, after one in which ridge time was `last` (11 R297). -/
def checkGevts (last : BitVec 64) (s : State) : State :=
  let due := s.gl.rxGevt.filter (fun e => decide (e.1 ≤ tickNow s))
  due.foldl (fun s e => gevtChecked last e.2.1 e.2.2 s)
    { s with gl := { s.gl with rxGevt := s.gl.rxGevt.filter (fun e => decide (tickNow s < e.1)) } }

/-- The frames received by the present tick join the queues in which they wait to be forwarded (11 R288, R297). -/
def queueReceived (s : State) : State :=
  let due := s.gl.rxFwd.filter (fun e => decide (e.1 ≤ tickNow s))
  due.foldl (fun s e => forward e.2.1 e.2.2 s)
    { s with gl := { s.gl with rxFwd := s.gl.rxFwd.filter (fun e => decide (tickNow s < e.1)) } }

/-- A frame that arrives is to be forwarded once it has been received and checked, 34 ticks on (11 R297). DEDUCED: so of every frame,
though R297 speaks of GEVT (log entry 26). -/
def forwardLater (down : Bool) (f : Frame) (s : State) : State :=
  { s with gl := { s.gl with rxFwd := s.gl.rxFwd ++ [(tickNow s + 34, down, f)] } }

/-- GEVT_UP arrives (11 R294). -/
def execGevtUp (src : BitVec 16) (mask : BitVec 64) (s : State) : Host.Outcome State Fault Refusal :=
  .next (if aoOn s ∧ s.gl.dnUsed then
    receive true { type := 4, bc := false, src := src, dst := 0, payload := mask.setWidth 72 }
      { s with gl := { s.gl with mask := s.gl.mask ||| mask } }
  else s)

/-- GEVT arrives on a member (11 R295): forwarded; DEL is widened in the arrival tick (11 R289), and the mask is armed once the frame
has been received and checked. -/
def execGevt (src : BitVec 16) (mask : BitVec 64) (del : BitVec 24) (s : State) : Host.Outcome State Fault Refusal :=
  .next (if aoOn s ∧ s.gl.role = .member then
    let d := widen s del
    let f := ownFrame s 5 true (fld del 0 16) (mask.toNat + (fld del 16 8 : BitVec 8).toNat * 2 ^ 64)
    let s := forwardLater true f s
    receive false { f with src := src } { s with gl := { s.gl with rxGevt := s.gl.rxGevt ++ [(tickNow s + 34, d, mask)] } }
  else s)

/-- GEVT_DELIVERY (11 R295, R296): the masks whose DEL is reached, in the order of their DEL. -/
def execGevtDelivery (s : State) : Host.Outcome State Fault Refusal :=
  let due := s.gl.armed.filter (fun e => decide (e.1.toNat ≤ s.clk.ridge.toNat))
  .next (if aoOn s then
    due.foldl (fun s e => deliverMask e.2 s)
      { s with gl := { s.gl with armed := s.gl.armed.filter (fun e => decide (s.clk.ridge.toNat < e.1.toNat)) } }
  else s)

/-- STANDALONE_GEVT (11 R414): in the first ccyc of a tick the mask is taken, to be delivered GEVT_LEAD ticks later. -/
def execStandaloneGevt (s : State) : Host.Outcome State Fault Refusal :=
  .next (if aoOn s ∧ s.gl.role = .standalone ∧ s.gl.mask ≠ 0 ∧ s.clk.now % 2 = 0 then
    let m := s.gl.mask
    let s := { s with gl := { s.gl with mask := 0 } }
    if s.gl.lead = 0 then deliverMask m s else armMask (s.clk.ridge + s.gl.lead.setWidth 64) m s
  else s)

/-! ### COMMIT frames (11 R303) -/

/-- The COMMIT frame of T and E (Table 11.3). -/
def commitFrame (s : State) (t : BitVec 48) (e : Word) : Frame :=
  ownFrame s 6 true ((fld e 24 8 : BitVec 8).setWidth 16) (t.toNat + (fld e 0 24 : BitVec 24).toNat * 2 ^ 48)

/-- COMMIT arrives on a member: forwarded and armed. -/
def execCommit (src : BitVec 16) (t : BitVec 48) (e : Word) (s : State) : Host.Outcome State Fault Refusal :=
  .next (if aoOn s ∧ s.gl.role = .member then
    receive false { commitFrame s t e with src := src } (armCommit (widen s t) e (forwardLater true (commitFrame s t e) s))
  else s)

/-! ### Roll calls (11 R300-R302) -/

/-- The users of the SHA-256 unit as a new round begins: a rehash for a round before is not that of this one. -/
def pastRound (u : ShaUser) : ShaUser := if u = .roll then .oldRoll else u

/-- An instance takes part in a round: a rehash of its own, and its answer due at its slot (11 R300). -/
def joinRoll (round : BitVec 16) (e : Word) (tr : BitVec 64) (s : State) : State :=
  if coreOn s then startRehash .roll { s with
    dig := { s.dig with users := s.dig.users.map pastRound }
    roll := { s.roll with due := some (round, e, tr), fresh := false } } else s

/-- The ROLL frame of a round (Table 11.3). -/
def rollFrame (s : State) (round : BitVec 16) (e : Word) (tr : BitVec 24) : Frame :=
  ownFrame s 7 true round (e.toNat + tr.toNat * 2 ^ 32)

/-- ROLL arrives on a member. -/
def execRoll (src : BitVec 16) (round : BitVec 16) (e : Word) (tr : BitVec 24) (s : State) : Host.Outcome State Fault Refusal :=
  .next (if aoOn s ∧ s.gl.role = .member then
    receive false { rollFrame s round e tr with src := src }
      (joinRoll round e (widen s tr) (forwardLater true (rollFrame s round e tr) s))
  else s)

/-- Mark an instance as failed with a reason, in ascending ID (Table 11.5). -/
def markBad (id reason : Nat) (l : List (Nat × Nat)) : List (Nat × Nat) :=
  insertBy (fun a b => decide (a.1 < b.1)) (id, reason) (l.filter (fun x => x.1 != id))

/-- The reason that an answer's flags give, if any. -/
def answerReason (digOk epochOk busy : Bool) : Option Nat :=
  if busy then some 5
  else if !digOk && !epochOk then some 3
  else if !digOk then some 1
  else if !epochOk then some 2
  else none

/-- The master, or a standalone instance, records an answer of the current round (11 R301). -/
def recordAnswer (id : Nat) (round : BitVec 16) (digOk epochOk busy : Bool) (s : State) : State :=
  let r := s.roll
  if !r.active || r.round != round then s
  else
    let reason := if s.gl.instCount.toNat ≤ id then some 6
      else if r.seen.contains id then some 7
      else answerReason digOk epochOk busy
    { s with roll := { r with
      seen := insertNat id r.seen
      bad := match reason with
        | some x => markBad id x r.bad
        | none => r.bad } }

/-- A ROLL_RSP frame (11 Table 11.3). -/
def answerFrame (src : BitVec 16) (round : BitVec 16) (e : Word) (digOk epochOk busy : Bool) : Frame :=
  { type := 8, bc := false, src := src, dst := 0
    payload := BitVec.ofNat 72 (round.toNat + e.toNat * 2 ^ 16 + flag32 48 digOk + flag32 49 epochOk + flag32 50 busy) }

/-- ROLL_SLOT (11 R300): the instance's own answer at its slot tick. -/
def execRollSlot (s : State) : Host.Outcome State Fault Refusal :=
  .next (match s.roll.due with
  | none => s
  | some (round, e, tr) =>
    if coreOn s ∧ tr.toNat + 64 * s.gl.instId.toNat ≤ s.clk.ridge.toNat then
      let digOk := s.roll.fresh && s.dig.act == s.dig.recd
      let epochOk := s.dig.epoch == e
      let busy := !s.roll.fresh || s.dig.recPend
      let s := { s with roll := { s.roll with due := none } }
      if s.gl.role = .member then
        queueOwn false (answerFrame s.gl.instId round s.dig.epoch digOk epochOk busy) s
      else recordAnswer s.gl.instId.toNat round digOk epochOk busy s
    else s)

/-- ROLL_RSP arrives on the downstream port (11 R300, R301): a member forwards it, with the responder as SRC. -/
def execRollRsp (src : BitVec 16) (round : BitVec 16) (e : Word) (digOk epochOk busy : Bool) (s : State) :
    Host.Outcome State Fault Refusal :=
  let f := answerFrame src round e digOk epochOk busy
  .next (if aoOn s ∧ s.gl.dnUsed then
    receive true f (match s.gl.role with
    | .member => forwardLater false f s
    | .master => recordAnswer src.toNat round digOk epochOk busy s
    | .standalone => s)
  else s)

/-- The instances below INST_COUNT that did not answer are silent. -/
def silent (r : Roll) (n : Nat) : List (Nat × Nat) :=
  (List.range n).foldl (fun l id => if r.seen.contains id then l else markBad id 4 l) r.bad

/-- ROLL_CLOSE (11 R301). -/
def execRollClose (s : State) : Host.Outcome State Fault Refusal :=
  let r := s.roll
  .next (if aoOn s ∧ r.active ∧ r.tr.toNat + 64 * s.gl.instCount.toNat + s.gl.tail.toNat ≤ s.clk.ridge.toNat then
    let bad := silent r s.gl.instCount.toNat
    let s := { s with roll := { r with
      active := false, done := true, bad := bad, nbad := BitVec.ofNat 17 bad.length, named := bad.take 16 } }
    if bad.isEmpty then s else setCause 50 s
  else s)

end Sys2Proof.Machine
end

