-- ==== Sys2Proof/Machine/Gennal.lean ====
section
/-! DEFINITION. The mailbox and the Gennal commands (13). A row of a command is the host's writes of the argument words that
Table 13.2 lists for it, then of CMD_CTL with its opcode and token; the command's work is done in the step of its
acceptance, but where it waits for something that another row brings (log entries 8, 17). -/

namespace Sys2Proof.Machine

/-! ### The mailbox (13 R333) -/

/-- What reaches Gennal from outside the mailbox while it works: the BOOT port, the ring census, the lock, failing tests. -/
structure Extras where
  read    : BootRead := .noAnswer 0 { bytes := [], bad := [], ue := [] }
  load    : BootRead := .noAnswer 0 { bytes := [], bad := [], ue := [] }
  write   : BootWrite := .noAnswer 0
  ringFail : Option RingCase := none
  census  : BitVec 128 := 0
  lock    : Option (BitVec 256) := none
  failing : BitVec 4 := 0
  deriving DecidableEq, Repr

/-- The bits of `v`, ascending, placed at the bits of a word that `named` does not name. -/
def spread (named : Word) (v : Nat) : Word :=
  BitVec.ofNat 32 ((List.range 32).foldl (fun (p : Nat × Nat) i =>
    if named.getLsbD i then p else (p.1 + (p.2 % 2) * 2 ^ i, p.2 / 2)) (0, v)).1

/-- A bit that the table does not name is set (13 R336). -/
def unnamed (named w : Word) : Bool := w &&& ~~~ named != 0

/-- Fail with a code and no results. -/
def fail (code : BitVec 8) (s : State) : State := finish code {} s

/-- Complete with no results. -/
def done (s : State) : State := finish 0 {} s

/-- Wait for something that another row brings. -/
def await (j : Job) (s : State) : State := { s with cmd := { s.cmd with job := j } }

/-! ### LOAD (13 Table 13.8, R341, R342; 04 R109) -/

/-- LOAD with DEST 0. -/
def loadStore (nobump : Bool) (off n : Nat) (s : State) : State :=
  if off % 8 ≠ 0 ∨ n % 8 ≠ 0 ∨ n < 8 ∨ 4096 < n ∨ 0x40000 < off + n then fail 2 s
  else
    let s := { s with prog := copyBytes s.cmd.buf 0 s.prog off n }
    done (if nobump then markRec s else bumpEpoch s)

/-- OFFSET and NBYTES name whole beats inside one copy area (13 Table 13.6). -/
def areaOk (off n : Nat) : Bool :=
  off % 32 == 0 && n % 32 == 0 && decide (32 ≤ n) && decide (n ≤ 4096) && decide (off + n ≤ 0x80000) &&
  off / 0x40000 == (off + n - 1) / 0x40000

/-- The copy area is the one that BS_STAT.ACTIVE names. -/
def activeArea (s : State) (off : Nat) : Bool := s.bs.active.toNat == off / 0x40000

/-- The results of a BOOT-port response that was not OK (13 Table 13.3, 0x0B), whose detail code counts with TERR and GERR alone (02 R51). -/
def badResponse (resp : BitVec 3) (detail : BitVec 4) (off : Nat) : Results :=
  { r2 := BitVec.ofNat 32 off, r3 := BitVec.ofNat 32 (at32 4 (respDetail resp detail).toNat + resp.toNat) }

/-- The address of an offset from the base of copy A. -/
def optionAddr (off : Nat) : Nat := copyBase false + off

/-- The answers to a LOAD of which the burst with the beat at option-area offset `o` is answered with another code than OK: WR_BEAT is
that of the first beat that failed (02 R53). -/
def errorAt (r : BitVec 3) (d : BitVec 4) (o : Nat) (b : BootBurst) : BitVec 3 × BitVec 4 × BitVec 3 :=
  if b.addr ≤ optionAddr o ∧ optionAddr o < b.addr + 32 * b.len then (r, d, BitVec.ofNat 3 ((optionAddr o - b.addr) / 32))
  else (0, 0, 0)

/-- Every answer is OK. -/
def allOk (_ : BootBurst) : BitVec 3 × BitVec 4 × BitVec 3 := (0, 0, 0)

/-- LOAD with DEST 1. -/
def loadOption (off n : Nat) (x : Extras) (s : State) : State :=
  if !areaOk off n then fail 2 s
  else if s.mon.vmon then fail 9 s
  else if activeArea s off then fail 10 s
  else if allLost s.boot.wtags then fail 12 s
  else
    let a := optionAddr off
    let all := burstsOf a n
    let s := freshBoot s
    match x.write with
    | .noAnswer lost =>
      await (.bootWrite off n n none false) (writeBursts a allOk (loseBurst (some (min lost.toNat (all.length - 1))) all) s)
    | .later p =>
      let l := burstsWithin a p.toNat all
      await (.bootWrite off n (burstBytes l) (some s.boot.wtags) false) (writeBursts a allOk (loseBurst (some (l.length - 1)) l) s)
    | .ok => done (writeBursts a allOk all s)
    | .strays none l => done (bootStrays l (writeBursts a allOk all s))
    | .strays (some lost) l =>
      await (.bootWrite off n n none false)
        (bootStrays l (writeBursts a allOk (loseBurst (some (min lost.toNat (all.length - 1))) all) s))
    | .err r d o => finish 11 (badResponse r d o.toNat) (writeBursts a (errorAt r d o.toNat) all s)

/-- The last burst that was presented is answered OK: its tag is free again. -/
def lastAnswer (tags : BitVec 4) (s : State) : State :=
  match (List.range 4).find? (fun t => s.boot.wtags.getLsbD t && !tags.getLsbD t) with
  | some t => passCycles ([{ wr := some (wrOf t 0 0 0) }], { s.boot with wtags := tags }) s
  | none => s

/-- A LOAD of the option area whose responses come in ends (13 R341): with 0x09 where VMON_LOW rose before everything was presented
(13 R342). -/
def loadEnds (off n p : Nat) (stopped : Bool) (tags : BitVec 4) (s : State) : State :=
  let s := lastAnswer tags s
  if stopped ∧ p < n then finish 9 { r2 := BitVec.ofNat 32 (off + p) } s
  else done (writeBursts (optionAddr off) allOk (burstsBeyond (optionAddr off) p (burstsOf (optionAddr off) n)) s)

/-- LOAD. -/
def runLoad (x : Extras) (s : State) : State :=
  let a := s.cmd.args
  if unnamed 3 a.a0 then fail 1 s
  else if bit a.a0 0 then loadOption a.a1.toNat a.a2.toNat x s
  else loadStore (bit a.a0 1) a.a1.toNat a.a2.toNat s

/-! ### VERIFY, RESTRUCTURE (13 R341) -/

/-- RES0 to RES2 of VERIFY (13 Table 13.2). -/
def verifyResults (r : Nat × Nat) (b : List Byte) : Results :=
  { r0 := BitVec.ofNat 32 (r.1 + at32 8 r.2), r1 := BitVec.ofNat 32 (imgSeq b), r2 := BitVec.ofNat 32 (imgLength b) }

/-- A VERIFY that waited for the SHA-256 unit goes on (13 R346). -/
def verifyGoes (s : State) : State :=
  match s.cmd.job with
  | .verifyWait _ i lock =>
    if s.dig.users.isEmpty then
      finish 0 (verifyResults (validate { image := i } lock) i.bytes) s
    else s
  | _ => s

/-- The burst of this index of a list, or its last. -/
def lostIn (lost : BitVec 11) (l : List BootBurst) : Option Nat := some (min lost.toNat (l.length - 1))

/-- Gennal reads a whole copy area (12 R307); with `lost` a burst gets no final response. -/
def readCopy (copyB : Bool) (i : CopyImage) (lost : Option (BitVec 11)) (s : State) : State :=
  let a := copyBase copyB
  readBoot a a 0x40000 i (lost.bind (fun k => lostIn k (burstsOf a 0x40000))) s

/-- VERIFY with READ 0: where the SHA-256 unit serves a rehash it waits (13 R346). -/
def verifyCopy (copyB : Bool) (x : Extras) (s : State) : State :=
  if allLost s.boot.rtags then fail 12 s
  else match x.read with
    | .noAnswer lost i => await (.bootRead true copyB false) (readCopy copyB i (some lost) (freshBoot s))
    | .image i => verifyGoes (await (.verifyWait copyB i x.lock) (readCopy copyB i none (freshBoot s)))

/-- VERIFY with READ 1: OFFSET counts from the base of copy A, as for LOAD (log entry 29). -/
def verifyBytes (copyB : Bool) (off n : Nat) (x : Extras) (s : State) : State :=
  let base := if copyB then 0x40000 else 0
  if !areaOk off n ∨ off / 0x40000 ≠ base / 0x40000 then fail 2 s
  else if allLost s.boot.rtags then fail 12 s
  else
    let read := fun i lost => readBoot (copyBase copyB) (optionAddr off) n i lost (freshBoot s)
    match x.read with
    | .noAnswer lost i => await (.bootRead true copyB true) (read i (lostIn lost (burstsOf (optionAddr off) n)))
    | .image i =>
      let s := read i none
      let o := off - base
      match bestBy (fun a b => decide (a.1 < b.1)) (i.bad.filter (fun e => decide (o ≤ e.1 + 31) && decide (e.1 < o + n))) with
      | some e => finish 11 (badResponse e.2.1 e.2.2 (base + e.1)) s
      | none => done { s with cmd := { s.cmd with buf := writeImage i.bytes o 0 n s.cmd.buf } }

/-- VERIFY. -/
def runVerify (x : Extras) (s : State) : State :=
  let a := s.cmd.args
  if unnamed 3 a.a0 then fail 1 s
  else if bit a.a0 1 then verifyBytes (bit a.a0 0) a.a1.toNat a.a2.toNat x s
  else verifyCopy (bit a.a0 0) x s

/-- Every channel IDLE with CH_TAGS 0, no orphaned tag, no commit armed (13 Table 13.6). -/
def engineIdle (s : State) : Bool :=
  s.chans.all (fun e => e.2.st == .idle) && noTagsAtAll s && !anyOrphan s && !s.com.armed

/-- Record a reason for the named copy (13 R341). -/
def recordReason (copyB : Bool) (r : Nat × Nat) (b : BootStat) : BootStat :=
  if copyB then { b with reasonB := BitVec.ofNat 4 r.1, errB := BitVec.ofNat 18 r.2 }
  else { b with reasonA := BitVec.ofNat 4 r.1, errA := BitVec.ofNat 18 r.2 }

/-- A named copy is rejected. -/
def rejectCopy (copyB : Bool) (r : Nat × Nat) (b : List Byte) (s : State) : State :=
  finish 13 (verifyResults r b) { s with bs := recordReason copyB r s.bs }

/-- A named copy is loaded as at boot; a host write of the same ccyc stands (01 R21). -/
def restructure (copyB : Bool) (b : List Byte) (census : BitVec 128) (s : State) : State :=
  let s := { s with bs := recordReason copyB (0, 0) { s.bs with
    active := if copyB then 1 else 0, seq := BitVec.ofNat 32 (imgSeq b), trail := imgTrailer b } }
  finish 0 (verifyResults (0, 0) b) (hostKeeps s (openUp census (loadImage b s)))

/-- A RESTRUCTURE whose copy has been read goes on once the SHA-256 unit is free, which serves one user at a time (13 R346): the copy
is validated, read again and loaded (12 R328). DESIGN CHOICE: where a channel was started meanwhile, a valid copy is loaded once the engine
is idle again (01 R27, 04 R114; log entry 46). -/
def restructureGoes (s : State) : State :=
  match s.cmd.job with
  | .restructureWait copyB i load census lock =>
    if s.dig.users.isEmpty then
      let r := validate { image := i } lock
      if r.1 ≠ 0 then rejectCopy copyB r i.bytes s
      else if !engineIdle s then s
      else match load with
        | .noAnswer lost j => await (.bootRead false copyB false) (readCopy copyB j (some lost) s)
        | .image j =>
          let s := readCopy copyB j none s
          if loadOk i j then restructure copyB i.bytes census s else rejectCopy copyB (12, 0) i.bytes s
    else s
  | _ => s

/-- RESTRUCTURE. -/
def runRestructure (x : Extras) (s : State) : State :=
  let copyB := bit s.cmd.args.a0 0
  if unnamed 1 s.cmd.args.a0 then fail 1 s
  else if !engineIdle s then fail 7 s
  else if s.bs.safe then fail 8 s
  else if allLost s.boot.rtags then fail 12 s
  else match x.read with
    | .noAnswer lost i => await (.bootRead false copyB false) (readCopy copyB i (some lost) (freshBoot s))
    | .image i =>
      restructureGoes (await (.restructureWait copyB i x.load x.census x.lock) (readCopy copyB i none (freshBoot s)))

/-- The rehash in service ends: DIGEST_ACT is the digest of the active configuration; that of a DIGEST command completes it with
MATCH, that of the latest roll call makes the instance's answer fresh. -/
def rehashEnds (s : State) : State :=
  match s.dig.users with
  | [] => s
  | u :: rest =>
    let d := digestOf s
    let s := { s with dig := { s.dig with users := rest, act := d } }
    restructureGoes (verifyGoes (match u, s.cmd.job with
      | .roll, _ => { s with roll := { s.roll with fresh := true } }
      | .oldRoll, _ => s
      | .digest, .digest => finish 0 { r0 := BitVec.ofNat 32 (flag32 0 (d == s.dig.recd)) } s
      | .digest, _ => s))

/-- REHASH_DONE. -/
def execRehashDone (s : State) : Host.Outcome State Fault Refusal :=
  .next (if coreOn s ∧ s.dig.users ≠ [] then rehashEnds s else s)

/-! ### COMMIT_AT, ROLLCALL, SET_TIME (13 R340) -/

/-- COMMIT_AT; DIGEST_REC is to be written from its completion on (13 R339). With a commit armed it fails, with the lower of the codes that
apply (Table 13.3): an instant that has passed is missed, and no frame is sent (log entry 17). -/
def runCommitAt (s : State) : State :=
  let a := s.cmd.args
  let t : BitVec 64 := a.a1 ++ a.a0
  if s.clk.ridge.toNat + 2 ^ 46 < t.toNat then fail 2 s
  else if s.gl.role = .member then fail 3 s
  else if s.com.armed then (if armable s t then fail 16 s else fail 15 (setCause 57 s))
  else
    let ok := armable s t
    let s := armCommit t a.a2 (queueOwn true (commitFrame s (t.setWidth 48) a.a2) s)
    if ok then done (markRec s) else fail 15 s

/-- The smaller of GEVT_LEAD + 524,288 and 4,194,304 where TR_LEAD is 0. -/
def rollLead (s : State) (lead : Nat) : Nat := if lead = 0 then min (s.gl.lead.toNat + 524288) 4194304 else lead

/-- ROLLCALL (11 R300): it completes once ROLL is sent, on a standalone instance at once (13 R340). -/
def runRollcall (s : State) : State :=
  let a := s.cmd.args
  if unnamed 0x00FFFFFF a.a1 then fail 1 s
  else if 4194304 < a.a1.toNat then fail 2 s
  else if s.gl.role = .member then fail 3 s
  else if s.roll.active then fail 17 s
  else
    let tr := s.clk.ridge + BitVec.ofNat 64 (rollLead s a.a1.toNat)
    let round := s.roll.round + 1
    let s := { s with roll := { active := true, round := round, e := a.a0, tr := tr } }
    let s := joinRoll round a.a0 tr (queueOwn true (rollFrame s round a.a0 (fld tr 0 24)) s)
    let r : Results := { r0 := round.setWidth 32, r1 := fld tr 0 32, r2 := fld tr 32 32 }
    if s.gl.dnUsed then await (.rollcall r) s else finish 0 r s

/-- SET_TIME: ridge time reads T in the first tick that begins at least 8 CFG_CLK cycles on. -/
def runSetTime (s : State) : State :=
  let a := s.cmd.args
  if s.gl.role = .member then fail 3 s
  else done { s with clk := { s.clk with setTime := some (s.clk.now + 32, a.a1 ++ a.a0) } }

/-! ### Channel commands (13 R338) -/

/-- The channel that ARG0 names. -/
def argChan (s : State) : Nat := (fld s.cmd.args.a0 0 10 : BitVec 10).toNat

/-- A fault of the channel comes before a PARK applied in the present ccyc: the park fails with 0x06 (04 R99, 09 R242, 13 R338). -/
def faultWins (s : State) (c : Channel) : Bool :=
  match c.st with
  | .parked => stopping c
  | .running => stopping c
  | .waiting => stopping c
  | .halted => c.haltAt == s.clk.now
  | _ => false

/-- A PARK of a channel in a state that has the transition (09 R241, R242). It completes by the state that the channel has reached as
the ccyc ends (`endPark`), of one already PARKED too (04 R101); one whose deadline is reached halts. A channel that has entered WAITING
in the present ccyc was RUNNING in it, and parks as such. -/
def parkNow (ch : Nat) (s : State) : State :=
  let c := chan s ch
  if faultWins s c then fail 6 s
  else match c.st with
    | .parked => await (.park ch) (updChan ch (fun c => { c with parkSrc := false, wakeNext := false }) s)
    | .ready => enterPark ch false (await (.park ch) s)
    | .waiting =>
      if c.waitAt = some s.clk.now then askPark ch false (await (.park ch) s)
      else if condOpen s ch c && deadlineDue s c then reachDeadline ch (await (.park ch) s)
      else enterPark ch false (await (.park ch) s)
    | .running => askPark ch false (await (.park ch) s)
    | _ => fail 5 s

/-- PARK (09 R241, R242; 04 R101): it comes before a STOP and other progress of the same ccyc (04 R99). -/
def runPark (s : State) : State :=
  let ch := argChan s
  if unnamed 0x3FF s.cmd.args.a0 then fail 1 s
  else if !(chan s ch).assigned then fail 4 s
  else parkNow ch (unstop ch (yieldRaise ch (yieldProgress ch s)))

/-- RESUME (04 R100; 09 R234, R235). -/
def runResume (s : State) : State :=
  let ch := argChan s
  let c := chan s ch
  if unnamed 0x3FF s.cmd.args.a0 then fail 1 s
  else if !c.assigned then fail 4 s
  else match c.st with
    | .parked => done (unpark ch s)
    | .halted => done (applyPending ch (updChan ch (fun c => { c with pendCmd := .resume }) s))
    | _ => fail 5 s

/-- SKIP (09 R236). -/
def runSkip (s : State) : State :=
  let ch := argChan s
  let c := chan s ch
  if unnamed 0x3FF s.cmd.args.a0 then fail 1 s
  else if !c.assigned then fail 4 s
  else match c.st with
    | .halted => done (applyPending ch (updChan ch (fun c => { c with pendCmd := .skip }) s))
    | _ => fail 5 s

/-- The start of an engine soft reset (14 R359 step 1); it clears a freeze (17 R401). -/
def beginSoftReset (s : State) : State :=
  let s := { s with
    srst := { s.srst with start := some s.clk.now }, cmd := { s.cmd with job := .softReset }
    mon := { s.mon with frzSched := false, frzArb := 0 } }
  (chansWhere s (fun _ c => c.st != .idle && c.st != .aborting)).foldl (fun s ch => abort ch (settle ch (yieldProgress ch s))) s

/-- RESET_CH (04 R98; 14 R359). -/
def runResetCh (s : State) : State :=
  let a := s.cmd.args.a0
  let ch := argChan s
  if unnamed 0x800003FF a then fail 1 s
  else if bit a 31 then (if ch = 0 then beginSoftReset s else fail 1 s)
  else if !(chan s ch).assigned then fail 4 s
  else done (resetChannel ch (settle ch s))

/-- Make a port's outstanding tags orphans (14 R360). -/
def orphanTags (p : Port) : Port :=
  mapRtags (fun t => { t with orphan := true }) (mapWtags (fun t => { t with orphan := true }) p)

/-- The tags of all ports that are not orphaned yet: reads, writes. -/
def liveTags (s : State) : Nat × Nat :=
  ((portRange.map (fun n => ((rtagList (port s n)).filter (fun t => !t.2.orphan)).length)).sum,
   (portRange.map (fun n => ((wtagList (port s n)).filter (fun t => !t.2.orphan)).length)).sum)

/-- A port after a soft reset: enabled, with its credits and tags, and no holder, lent cycle, request or age. -/
def softPort (p : Port) : Port :=
  { orphanTags p with
    reqs := [], ages := [], holder := none, grant := none, presents := none, burst := none, rqOut := none, wdOut := none
    starve := {} }

/-- The end of the drain (14 R359 steps 3 to 5); a host write of the same ccyc stands (01 R21). -/
def endSoftReset (s : State) : State :=
  let s := sealCcyc s
  let h := s
  let n := liveTags s
  let s := { s with srst := { orphR := satAdd s.srst.orphR n.1, orphW := satAdd s.srst.orphW n.2, start := none } }
  let s := clearAllLines (mapPorts softPort { s with
    chans := tableOf {} (s.chans.map (fun e => (e.1, resetContext e.2)))
    movers := []
    ev := { s.ev with lines := tableOf {} (s.ev.lines.map (fun e => (e.1, { e.2 with queue := [] }))) }
    pd := { s.pd with quiesces := s.pd.quiesces.map (fun q => { q with chans := [] }) } })
  let s := clearCaptures (startAll (hostKeeps h s))
  if s.cmd.job = .softReset then done s else s

/-- SOFT_RESET_DRAIN_END: no tag is outstanding, an earlier orphan's included (14 R360), or 2,048 CFG_CLK cycles have passed. -/
def execSoftResetDrainEnd (s : State) : Host.Outcome State Fault Refusal :=
  .next (match s.srst.start with
  | some a => if coreOn s ∧ (allTagsIn s ∨ a + 8192 ≤ s.clk.now) then endSoftReset s else s
  | none => s)

/-! ### Updates (13 R339, Table 13.8) -/

/-- GATE_UPDATE (10 R263). Its STAGE beats overwrite the staging buffer: a pending shadow of the tile is discarded (13 R339). -/
def runGateUpdate (x : Extras) (s : State) : State :=
  let a := s.cmd.args.a0
  let g := (fld a 0 7 : BitVec 7).toNat
  if unnamed 0x17F a then fail 1 s
  else if !(present s g && (tile s g).chkOn) then fail 14 s
  else
    let s := setPendShadow g none (sendStage g s)
    if !bit a 8 then await (.gateUpdate g false) (sendApply g s)
    else match x.ringFail with
      | some w => fail 14 (ringFail w (BitVec.ofNat 7 g) .stage s)
      | none => done (markRec (setPendShadow g (some s.gate.stage) s))

/-- The peg words of CMD_BUF for a port: peg k at 0x80 × n + 2k. -/
def bufPeg (s : State) (n k : Nat) : Nat := readBytes s.cmd.buf (0x80 * n + 2 * k) 2

/-- The ports named in PORTS. -/
def portsOf (ports : BitVec 8) : List Nat := (List.range 8).filter (fun n => ports.getLsbD n)

/-- The pegs are copied from CMD_BUF into the shadows. -/
def copyPegs (ports : BitVec 8) (s : State) : State :=
  { s with pegSh := (portsOf ports).foldl (fun t n =>
      (List.range 64).foldl (fun t k => put 0 t (pegKey n k) (BitVec.ofNat 16 (bufPeg s n k))) t) s.pegSh }

/-- PEG_UPDATE: it completes at the commit wrap, or at once where it commits nothing. -/
def runPegUpdate (s : State) : State :=
  let a := s.cmd.args.a0
  let ports : BitVec 8 := fld a 0 8
  let fromBuf := bit a 9
  if unnamed 0x3FF a then fail 1 s
  else if fromBuf && (portsOf ports).any (fun n => (List.range 64).any (fun k => pegBad (bufPeg s n k))) then fail 1 s
  else if (portsOf ports).any (fun n => !(port s n).used) then fail 2 s
  else
    let s := pegCommitWrite ports (bit a 8) false (if fromBuf then copyPegs ports s else s)
    if ports = 0 ∧ bit a 8 = false then done (bumpEpoch s) else await (.pegUpdate (commitWrap s) ports fromBuf) s

/-- ROUTE_UPDATE. -/
def runRouteUpdate (s : State) : State := done (bumpEpoch (commitRoutes s))

/-- DIGEST: it completes with the rehash. -/
def runDigest (s : State) : State := await .digest (startRehash .digest s)

/-! ### SELFTEST, READ_LOG (13 R343, R344) -/

/-- The CFG_CLK cycles of the tests named, each at its bound (13 Table 13.7; DESIGN CHOICE, log entry 46). -/
def testCycles (t : BitVec 4) : Nat :=
  (if bit t 0 then 512 else 0) + (if bit t 1 then 2000 else 0) + (if bit t 2 then 45000 else 0) + (if bit t 3 then 9000 else 0)

/-- SELFTEST: the tests run in order. -/
def runSelftest (x : Extras) (s : State) : State :=
  let t : BitVec 4 := fld s.cmd.args.a0 0 4
  if unnamed 0xF s.cmd.args.a0 then fail 1 s
  else if t &&& 14 ≠ 0 ∧ ¬ engineIdle s then fail 7 s
  else if t = 0 then done s
  else await (.selftest t (t &&& x.failing) (s.clk.now + 4 * testCycles t)) s

/-- The tests have run: the context RAM test has returned every context to its reset values; a failed test fails the command with
0x12. -/
def selftestEnds (t f : BitVec 4) (s : State) : State :=
  let s := if bit t 2 then { s with chans := tableOf {} (s.chans.map (fun e => (e.1, resetContext e.2))) } else s
  if f = 0 then done s else finish 18 { r0 := f.setWidth 32 } s

/-- A CFG_CLK cycle begins: the command in progress that ends by itself does so once its time has come. -/
def jobsDue (s : State) : State :=
  match s.cmd.job with
  | .bootWrite o n p (some tags) stopped => loadEnds o n p stopped tags s
  | .selftest t f due => if due ≤ s.clk.now then selftestEnds t f s else s
  | .restructureWait _ _ _ _ _ => restructureGoes s
  | _ => s

/-- The four words of entry `k` in CMD_BUF. -/
def putEntry (m : Memory) (k : Nat) (e : LogEntry) : Memory :=
  (List.range 4).foldl (fun m w => writeBytes m (16 * k + 4 * w) 4 (logWord e w).toNat) m

/-- READ_LOG. -/
def runReadLog (s : State) : State :=
  let a := s.cmd.args.a0
  let n := (fld a 0 7 : BitVec 7).toNat
  if unnamed 0x17F a then fail 1 s
  else if n < 1 ∨ 64 < n then fail 2 s
  else
    let l := s.flog.entries.take n
    let buf := l.zipIdx.foldl (fun m p => putEntry m p.2 p.1) s.cmd.buf
    let s := { s with cmd := { s.cmd with buf := buf } }
    let s := if bit a 8 then (List.range l.length).foldl (fun s _ => popLog s) s else s
    finish 0 { r0 := BitVec.ofNat 32 l.length } s

/-! ### Issue (13 R333) -/

/-- The command of an opcode (13 Table 13.2). -/
def runCommand (op : Nat) (x : Extras) (s : State) : State :=
  match op with
  | 0x01 => runLoad x s
  | 0x02 => runVerify x s
  | 0x03 => runRestructure x s
  | 0x04 => runCommitAt s
  | 0x05 => runPark s
  | 0x06 => runResume s
  | 0x07 => runSkip s
  | 0x08 => runResetCh s
  | 0x09 => runGateUpdate x s
  | 0x0A => runPegUpdate s
  | 0x0B => runRouteUpdate s
  | 0x0C => runDigest s
  | 0x0D => runRollcall s
  | 0x0E => runSelftest x s
  | 0x0F => runReadLog s
  | 0x10 => runSetTime s
  | _ => fail 1 s

/-- A write of CMD_CTL reaches CORE: accepted with BUSY 0, else dropped with LOST. -/
def issue (op tok : Byte) (x : Extras) (s : State) : State :=
  if s.cmd.busy then noteSet 0x801 28 { s with cmd := { s.cmd with lost := true } }
  else runCommand op.toNat x { s with cmd := { s.cmd with
    busy := true, done := false, err := false, code := 0, opcode := op, token := tok } }

/-- The mailbox answers: CORE runs; during boot and wake sequence a write of CMD_CTL is still dropped with LOST (15 R377). -/
def mailboxOn (s : State) : Bool := coreOn s || (s.pwr.st == .waking && s.cmd.busy)

/-- The host writes argument words, then CMD_CTL. During boot and wake sequence the argument writes are dropped. -/
def hostIssue (op tok : Byte) (args : Args → Args) (x : Extras) (s : State) : State :=
  if !mailboxOn s then s
  else issue op tok x (if coreOn s then { s with cmd := { s.cmd with args := args s.cmd.args } } else s)

/-! ### The rows of the commands -/

/-- ARG0 with a channel and unnamed bits. -/
def chanArg (named : Word) (ch : Chan) (rsv : Nat) : Word := spread named rsv ||| ch.setWidth 32

/-- LOAD, DEST 0. -/
def effLoadProgramStore (tok : Byte) (nobump : Bool) (offset nbytes : Word) (rsv : BitVec 30) (s : State) : State :=
  hostIssue 1 tok (fun a => { a with
    a0 := spread 3 rsv.toNat ||| BitVec.ofNat 32 (flag32 1 nobump), a1 := offset, a2 := nbytes }) {} s

/-- See `effLoadProgramStore`. -/
def execLoadProgramStore (tok : Byte) (nobump : Bool) (offset nbytes : Word) (rsv : BitVec 30) (s : State) :
    Host.Outcome State Fault Refusal :=
  .next (hostAccess (.loadProgramStore tok nobump offset nbytes rsv) (effLoadProgramStore tok nobump offset nbytes rsv) s)

/-- LOAD, DEST 1. -/
def effLoadOptionArea (tok : Byte) (nobump : Bool) (offset nbytes : Word) (rsv : BitVec 30) (ans : BootWrite) (s : State) : State :=
  hostIssue 1 tok (fun a => { a with
    a0 := spread 3 rsv.toNat ||| BitVec.ofNat 32 (1 + flag32 1 nobump), a1 := offset, a2 := nbytes }) { write := ans } s

/-- See `effLoadOptionArea`. -/
def execLoadOptionArea (tok : Byte) (nobump : Bool) (offset nbytes : Word) (rsv : BitVec 30) (ans : BootWrite) (s : State) :
    Host.Outcome State Fault Refusal :=
  .next (hostAccess (.loadOptionArea tok nobump offset nbytes rsv ans) (effLoadOptionArea tok nobump offset nbytes rsv ans) s)

/-- VERIFY, READ 0. -/
def effVerify (tok : Byte) (copyB : Bool) (rsv : BitVec 30) (ans : BootRead) (lock : Option (BitVec 256)) (s : State) : State :=
  hostIssue 2 tok (fun a => { a with a0 := spread 3 rsv.toNat ||| BitVec.ofNat 32 (flag32 0 copyB) })
    { read := ans, lock := lock } s

/-- See `effVerify`. -/
def execVerify (tok : Byte) (copyB : Bool) (rsv : BitVec 30) (ans : BootRead) (lock : Option (BitVec 256)) (s : State) :
    Host.Outcome State Fault Refusal :=
  .next (hostAccess (.verify tok copyB rsv ans lock) (effVerify tok copyB rsv ans lock) s)

/-- VERIFY, READ 1. -/
def effVerifyRead (tok : Byte) (copyB : Bool) (offset nbytes : Word) (rsv : BitVec 30) (ans : BootRead) (s : State) : State :=
  hostIssue 2 tok (fun a => { a with
    a0 := spread 3 rsv.toNat ||| BitVec.ofNat 32 (2 + flag32 0 copyB), a1 := offset, a2 := nbytes }) { read := ans } s

/-- See `effVerifyRead`. -/
def execVerifyRead (tok : Byte) (copyB : Bool) (offset nbytes : Word) (rsv : BitVec 30) (ans : BootRead) (s : State) :
    Host.Outcome State Fault Refusal :=
  .next (hostAccess (.verifyRead tok copyB offset nbytes rsv ans) (effVerifyRead tok copyB offset nbytes rsv ans) s)

/-- RESTRUCTURE. -/
def effRestructure (tok : Byte) (copyB : Bool) (rsv : BitVec 31) (ans ld : BootRead) (census : BitVec 128)
    (lock : Option (BitVec 256)) (s : State) : State :=
  hostIssue 3 tok (fun a => { a with a0 := spread 1 rsv.toNat ||| BitVec.ofNat 32 (flag32 0 copyB) })
    { read := ans, load := ld, census := census, lock := lock } s

/-- See `effRestructure`. -/
def execRestructure (tok : Byte) (copyB : Bool) (rsv : BitVec 31) (ans ld : BootRead) (census : BitVec 128)
    (lock : Option (BitVec 256)) (s : State) : Host.Outcome State Fault Refusal :=
  .next (hostAccess (.restructure tok copyB rsv ans ld census lock) (effRestructure tok copyB rsv ans ld census lock) s)

/-- COMMIT_AT. -/
def effCommitAt (tok : Byte) (t : BitVec 64) (e : Word) (s : State) : State :=
  hostIssue 4 tok (fun a => { a with a0 := fld t 0 32, a1 := fld t 32 32, a2 := e }) {} s

/-- See `effCommitAt`. -/
def execCommitAt (tok : Byte) (t : BitVec 64) (e : Word) (s : State) : Host.Outcome State Fault Refusal :=
  .next (hostAccess (.commitAt tok t e) (effCommitAt tok t e) s)

/-- PARK. -/
def effPark (tok : Byte) (ch : Chan) (rsv : BitVec 22) (s : State) : State :=
  hostIssue 5 tok (fun a => { a with a0 := chanArg 0x3FF ch rsv.toNat }) {} s

/-- See `effPark`. -/
def execPark (tok : Byte) (ch : Chan) (rsv : BitVec 22) (s : State) : Host.Outcome State Fault Refusal :=
  .next (hostAccess (.park tok ch rsv) (effPark tok ch rsv) s)

/-- RESUME. -/
def effResume (tok : Byte) (ch : Chan) (rsv : BitVec 22) (s : State) : State :=
  hostIssue 6 tok (fun a => { a with a0 := chanArg 0x3FF ch rsv.toNat }) {} s

/-- See `effResume`. -/
def execResume (tok : Byte) (ch : Chan) (rsv : BitVec 22) (s : State) : Host.Outcome State Fault Refusal :=
  .next (hostAccess (.resume tok ch rsv) (effResume tok ch rsv) s)

/-- SKIP. -/
def effSkip (tok : Byte) (ch : Chan) (rsv : BitVec 22) (s : State) : State :=
  hostIssue 7 tok (fun a => { a with a0 := chanArg 0x3FF ch rsv.toNat }) {} s

/-- See `effSkip`. -/
def execSkip (tok : Byte) (ch : Chan) (rsv : BitVec 22) (s : State) : Host.Outcome State Fault Refusal :=
  .next (hostAccess (.skip tok ch rsv) (effSkip tok ch rsv) s)

/-- RESET_CH, ENGINE 0. -/
def effResetCh (tok : Byte) (ch : Chan) (rsv : BitVec 21) (s : State) : State :=
  hostIssue 8 tok (fun a => { a with a0 := chanArg 0x800003FF ch rsv.toNat }) {} s

/-- See `effResetCh`. -/
def execResetCh (tok : Byte) (ch : Chan) (rsv : BitVec 21) (s : State) : Host.Outcome State Fault Refusal :=
  .next (hostAccess (.resetCh tok ch rsv) (effResetCh tok ch rsv) s)

/-- RESET_CH, ENGINE 1. -/
def effEngineSoftReset (tok : Byte) (ch : Chan) (rsv : BitVec 21) (s : State) : State :=
  hostIssue 8 tok (fun a => { a with a0 := chanArg 0x800003FF ch rsv.toNat ||| 0x80000000 }) {} s

/-- See `effEngineSoftReset`. -/
def execEngineSoftReset (tok : Byte) (ch : Chan) (rsv : BitVec 21) (s : State) : Host.Outcome State Fault Refusal :=
  .next (hostAccess (.engineSoftReset tok ch rsv) (effEngineSoftReset tok ch rsv) s)

/-- GATE_UPDATE, STAGE_ONLY 0. -/
def effGateUpdate (tok : Byte) (g : TileNo) (rsv : BitVec 24) (s : State) : State :=
  hostIssue 9 tok (fun a => { a with a0 := spread 0x17F rsv.toNat ||| g.setWidth 32 }) {} s

/-- See `effGateUpdate`. -/
def execGateUpdate (tok : Byte) (g : TileNo) (rsv : BitVec 24) (s : State) : Host.Outcome State Fault Refusal :=
  .next (hostAccess (.gateUpdate tok g rsv) (effGateUpdate tok g rsv) s)

/-- GATE_UPDATE, STAGE_ONLY 1. -/
def effGateUpdateStageOnly (tok : Byte) (g : RingTile) (rsv : BitVec 24) (s : State) : State :=
  hostIssue 9 tok (fun a => { a with a0 := spread 0x17F rsv.toNat ||| g.tile.setWidth 32 ||| 0x100 }) { ringFail := g.fail } s

/-- See `effGateUpdateStageOnly`. -/
def execGateUpdateStageOnly (tok : Byte) (g : RingTile) (rsv : BitVec 24) (s : State) : Host.Outcome State Fault Refusal :=
  .next (hostAccess (.gateUpdateStageOnly tok g rsv) (effGateUpdateStageOnly tok g rsv) s)

/-- PEG_UPDATE. -/
def effPegUpdate (tok : Byte) (ports : BitVec 8) (prio fromBuf : Bool) (rsv : BitVec 22) (s : State) : State :=
  hostIssue 10 tok (fun a => { a with
    a0 := spread 0x3FF rsv.toNat ||| ports.setWidth 32 ||| BitVec.ofNat 32 (flag32 8 prio + flag32 9 fromBuf) }) {} s

/-- See `effPegUpdate`. -/
def execPegUpdate (tok : Byte) (ports : BitVec 8) (prio fromBuf : Bool) (rsv : BitVec 22) (s : State) :
    Host.Outcome State Fault Refusal :=
  .next (hostAccess (.pegUpdate tok ports prio fromBuf rsv) (effPegUpdate tok ports prio fromBuf rsv) s)

/-- ROUTE_UPDATE. -/
def effRouteUpdate (tok : Byte) (s : State) : State :=
  hostIssue 11 tok id {} s

/-- See `effRouteUpdate`. -/
def execRouteUpdate (tok : Byte) (s : State) : Host.Outcome State Fault Refusal :=
  .next (hostAccess (.routeUpdate tok) (effRouteUpdate tok) s)

/-- DIGEST. -/
def effDigest (tok : Byte) (s : State) : State :=
  hostIssue 12 tok id {} s

/-- See `effDigest`. -/
def execDigest (tok : Byte) (s : State) : Host.Outcome State Fault Refusal :=
  .next (hostAccess (.digest tok) (effDigest tok) s)

/-- ROLLCALL. -/
def effRollcall (tok : Byte) (e : Word) (lead : BitVec 24) (rsv : BitVec 8) (s : State) : State :=
  hostIssue 13 tok (fun a => { a with a0 := e, a1 := spread 0x00FFFFFF rsv.toNat ||| lead.setWidth 32 }) {} s

/-- See `effRollcall`. -/
def execRollcall (tok : Byte) (e : Word) (lead : BitVec 24) (rsv : BitVec 8) (s : State) : Host.Outcome State Fault Refusal :=
  .next (hostAccess (.rollcall tok e lead rsv) (effRollcall tok e lead rsv) s)

/-- SELFTEST. -/
def effSelftest (tok : Byte) (tests : BitVec 4) (rsv : BitVec 28) (failing : BitVec 4) (s : State) : State :=
  hostIssue 14 tok (fun a => { a with a0 := spread 0xF rsv.toNat ||| tests.setWidth 32 }) { failing := failing } s

/-- See `effSelftest`. -/
def execSelftest (tok : Byte) (tests : BitVec 4) (rsv : BitVec 28) (failing : BitVec 4) (s : State) :
    Host.Outcome State Fault Refusal :=
  .next (hostAccess (.selftest tok tests rsv failing) (effSelftest tok tests rsv failing) s)

/-- READ_LOG. -/
def effReadLog (tok : Byte) (n : BitVec 7) (pop : Bool) (rsv : BitVec 24) (s : State) : State :=
  hostIssue 15 tok (fun a => { a with
    a0 := spread 0x17F rsv.toNat ||| n.setWidth 32 ||| BitVec.ofNat 32 (flag32 8 pop) }) {} s

/-- See `effReadLog`. -/
def execReadLog (tok : Byte) (n : BitVec 7) (pop : Bool) (rsv : BitVec 24) (s : State) : Host.Outcome State Fault Refusal :=
  .next (hostAccess (.readLog tok n pop rsv) (effReadLog tok n pop rsv) s)

/-- SET_TIME. -/
def effSetTime (tok : Byte) (t : BitVec 64) (s : State) : State :=
  hostIssue 16 tok (fun a => { a with a0 := fld t 0 32, a1 := fld t 32 32 }) {} s

/-- See `effSetTime`. -/
def execSetTime (tok : Byte) (t : BitVec 64) (s : State) : Host.Outcome State Fault Refusal :=
  .next (hostAccess (.setTime tok t) (effSetTime tok t) s)

/-- A reserved opcode fails with 0x01 (13 R336). An opcode that names a command is issued on the argument words as they
stand. -/
def effCmdReservedOpcode (tok opcode : Byte) (s : State) : State := hostIssue opcode tok id {} s

/-- See `effCmdReservedOpcode`. -/
def execCmdReservedOpcode (tok opcode : Byte) (s : State) : Host.Outcome State Fault Refusal :=
  .next (hostAccess (.cmdReservedOpcode tok opcode) (effCmdReservedOpcode tok opcode) s)

end Sys2Proof.Machine
end

