-- ==== Sys2Proof/Machine/Test.lean ====
section
/-! DEFINITION. The dual-rail compare (17 R401, R407) and the test port (17 R408-R410). -/

namespace Sys2Proof.Machine

/-! ### Dual-rail compare (17 R401, R407) -/

/-- A freeze is in force. -/
def frozen (s : State) : Bool := s.mon.frzSched || s.mon.frzArb != 0

/-- CORE is clocked: in RUN and on the way from it, and during boot and a wake from RETAIN or OFF_RDY (01 R29). -/
def coreClocked (s : State) : Bool := coreOn s || (s.pwr.st == .waking && s.pwr.pswAck && s.pwr.dozeW.isNone)

/-- SAFETY_CMP: the comparator finds a mismatch in the present ccyc, which may be that of a low-power entry (14 R349); the engine reacts
in the next (`reactRails`). -/
def execSafetyCmp (unit : RailUnit) (s : State) : Host.Outcome State Fault Refusal :=
  .next (if coreClocked s ∨ s.pwr.lowAt = some s.clk.now then { s with mon := { s.mon with rails := s.mon.rails ++ [unit] } } else s)

/-- The log entry of a mismatch (17 R401; 09 Table 9.10). -/
def logRail (u : RailUnit) (s : State) : State :=
  match u with
  | .scheduler => logFault { kind := 9, detail := 0 } s
  | .arbiter n => logFault { kind := 9, detail := 1, port := n } s

/-- Freeze one unit. -/
def freeze (u : RailUnit) (s : State) : State :=
  match u with
  | .scheduler => { s with mon := { s.mon with frzSched := true } }
  | .arbiter n => { s with mon := { s.mon with frzArb := setBit s.mon.frzArb n.toNat true } }

/-- A freeze begins in the present ccyc: its event is raised (17 R407), and SAFETY_CMP is set at the first TICK edge after
the ccyc of the mismatch, which is now if the present ccyc begins a tick. -/
def beginFreeze (us : List RailUnit) (s : State) : State :=
  let s := us.foldl (fun s u => freeze u s) s
  let s := if s.mon.safEn then raiseEvent s.mon.safEvt s else s
  if s.clk.now % 2 = 0 then setCause 6 s else { s with irq := { s.irq with safetyPend := true } }

/-- What the mismatches of the ccyc before do in this one; under an earlier freeze they add log entries only. -/
def reactRails (s : State) : State :=
  match s.mon.rails with
  | [] => s
  | us =>
    let held := frozen s
    let s := us.foldl (fun s u => logRail u s) { s with mon := { s.mon with rails := [] } }
    if held then s else beginFreeze us s

/-! ### The test port -/

/-- A WIR instruction: none takes effect while WRSTN holds the wrapper in reset. -/
def wrapper (f : Test → Test) (s : State) : Host.Outcome State Fault Refusal :=
  .next (if s.test.wrstN then { s with test := f s.test } else s)

/-- A WIR instruction that needs TM 1 (Table 17.6); without it, it has no effect. -/
def underTm (f : Test → Test) (s : State) : Host.Outcome State Fault Refusal :=
  if s.test.tm then wrapper f s else .next s

/-- The function drives the outputs. -/
def functional (t : Test) : Test := { t with mode := .functional, outs := none }

/-- TM 0 closes the isolation of the domains without power again (17 R409). -/
def isolate (s : State) : State :=
  let s := if coreIsOff s then isolateCore s else s
  if s.pwr.st = .off then isolateAo s else s

/-- TM rises: the block ignores its own isolation from then on; or it falls, and the isolation is in force again (17 R409). -/
def isolation (was : Bool) (s : State) : State :=
  if s.test.tm = was then s
  else if was then isolate s
  else
    let s := if coreIsOff s then freeCoreOutputs s else s
    if s.pwr.st = .off then freeAoOutputs s else s

/-- TEST_MODE (17 R408, R409): the levels of TM, WRSTN and SCAN_EN. With TM 0 nothing but the function drives the outputs. DESIGN CHOICE:
WRSTN 0 leaves WS_BYPASS in the WIR and the function at the outputs (log entry 16). -/
def execTestMode (p : TestPins) (s : State) : Host.Outcome State Fault Refusal :=
  let t := { s.test with tm := p.tm, wrstN := p.wrstN, scanEn := p.scanEn }
  let t := if p.tm then t else functional t
  .next (isolation s.test.tm { s with test := if p.wrstN then t else functional { t with wir := 0 } })

/-- The bits of a register, bit 0 first. -/
def bitList {n : Nat} (x : BitVec n) : List Bool := (List.range n).map (fun k => x.getLsbD k)

/-- Bits leave on WSO, the first one first. -/
def shiftOut (l : List Bool) (t : Test) : Test := { t with wso := l.getLastD t.wso, shifted := l }

/-- One shift of WBY between WSI and WSO. -/
def shiftWby (wsi : Bool) (t : Test) : Test := { shiftOut [t.wby] t with wby := wsi }

/-- An encoding of the WIR that Table 17.6 reserves. -/
def wirReserved (c : BitVec 4) : Bool := c == 6 || c == 7 || decide (10 ≤ c.toNat)

/-- WS_BYPASS, or a reserved encoding, which acts as it (17 R408). -/
def execWsBypass (b : Bypass) (s : State) : Host.Outcome State Fault Refusal :=
  wrapper (fun t => shiftWby b.wsi (functional { t with wir := if wirReserved b.code then b.code else 0 })) s

/-- One bit of a pin as a cell. -/
def cell (b : Bool) : BitVec 1 := BitVec.ofBool b

/-- Consecutive cells as a bit vector, the first one lowest. -/
def cells (n : Nat) (l : List Bool) : BitVec n := BitVec.ofNat n ((l.take n).foldr (fun b v => b.toNat + 2 * v) 0)

/-- The cells of the inputs of a port, in the order of 02 Table 2.1, the first one lowest. -/
def portInCells (p : PortIns) : BitVec 313 :=
  p.wrPar ++ p.wrBeat ++ p.wrDetail ++ p.wrResp ++ p.wrTag ++ cell p.wrValid ++ p.rdPar ++ p.rdDetail ++ p.rdResp ++ cell p.rdLast ++
    p.rdChk ++ p.rdData ++ p.rdTag ++ cell p.rdValid ++ cell p.wdCredit ++ cell p.rqCredit

/-- The levels of the inputs that the state holds: REQ_IN, PD_REQ, VMON_LOW, CORE_PSW_ACK, RXC and RXD of both guyline ports, and
BOOT_BASE. -/
def heldCells (s : State) : BitVec 682 :=
  Config.bootBase ++ s.gl.dnLink.rxd ++ cell s.gl.dnLink.rxc ++ s.gl.upLink.rxd ++ cell s.gl.upLink.rxc ++
    cell (s.pwr.pswAck || s.pwr.ackIn.isSome) ++ cell s.mon.vmonPin ++ s.pd.pin ++
    cells 512 ((List.range 512).map (fun n => (line s n).pin))

/-- What the input cells capture (17 R408). DESIGN CHOICE: their order (log entry 16). -/
def inCells (p : InPins) (s : State) : BitVec 3962 :=
  p.lock ++ cell p.lockEn ++ p.grRx ++ p.cfgPar ++ p.cfgWdata ++ p.cfgAddr ++ cell p.cfgWe ++ cell p.cfgReq ++ heldCells s ++
    portInCells p.boot ++ portInCells p.m7 ++ portInCells p.m6 ++ portInCells p.m5 ++ portInCells p.m4 ++ portInCells p.m3 ++
    portInCells p.m2 ++ portInCells p.m1 ++ portInCells p.m0

/-- The outputs of a port that its cells drive, in the order of 02 Table 2.1, the first one lowest. -/
def portOutsOf (x : BitVec 394) : PortOuts :=
  { clk := bit x 0, portEn := bit x 1, rqValid := bit x 2, rqWrite := bit x 3, rqAddr := fld x 4 48, rqSize := fld x 52 3
    rqLen := fld x 55 3, rqTag := fld x 58 6, rqPriv := bit x 64, rqMid := fld x 65 6, rqDom := fld x 71 7, rqCls := fld x 78 2
    rqPar := fld x 80 3, wdValid := bit x 83, wdData := fld x 84 256, wdChk := fld x 340 19, wdStrb := fld x 359 32
    wdLast := bit x 391, wdPoison := bit x 392, wdPar := bit x 393 }

/-- The outputs that the output cells of the boundary register drive. DESIGN CHOICE: their order (log entry 16). -/
def outsOf (x : BitVec 4521) : OutPins :=
  let p := fun k => portOutsOf (fld x (394 * k) 394)
  { m0 := p 0, m1 := p 1, m2 := p 2, m3 := p 3, m4 := p 4, m5 := p 5, m6 := p 6, m7 := p 7, boot := p 8
    evt := fld x 3546 512, irq := fld x 4058 4, pdAck := fld x 4062 128, pdNack := fld x 4190 128
    pswEn := bit x 4318, sramRet := bit x 4319, offRdy := bit x 4320
    cfgClk := bit x 4321, cfgAck := bit x 4322, cfgRdata := fld x 4323 32, cfgRpar := bit x 4355, cfgErr := bit x 4356
    gl := fld x 4357 10, grClk := bit x 4367, grRstN := bit x 4368, grTx := fld x 4369 152 }

/-- The boundary register drives the outputs. -/
def boundaryDrives (t : Test) : Test := { t with mode := .boundary, outs := some (outsOf t.wbr.outs) }

/-- The cells of the boundary register in the order of the shift path: those of the inputs lie next to WSO. -/
def shiftPath (b : Boundary) : BitVec 8483 := b.outs ++ b.ins

/-- The boundary register with these cells. -/
def ofShiftPath (x : BitVec 8483) : Boundary := { ins := fld x 0 3962, outs := fld x 3962 4521 }

/-- The cells after a shift by the bits of WSI, the first one first (17 R408). -/
def shiftIn (wsi : List Bool) (x : BitVec 8483) : BitVec 8483 :=
  wsi.foldl (fun x b => cell b ++ fld x 1 8482) x

/-- The bits that leave on WSO in that shift, the first one first. -/
def leaving (wsi : List Bool) (x : BitVec 8483) : List Bool := (bitList x ++ wsi).take wsi.length

/-- The boundary register shifts between WSI and WSO. -/
def shiftWbr (wsi : List Bool) (t : Test) : Test :=
  let x := shiftPath t.wbr
  { shiftOut (leaving wsi x) t with wbr := ofShiftPath (shiftIn wsi x) }

/-- The boundary register takes the levels of the inputs. -/
def captureIns (p : InPins) (s : State) (t : Test) : Test := { t with wbr := { t.wbr with ins := inCells p s } }

/-- WS_EXTEST: the boundary register captures the inputs and shifts between WSI and WSO, and its cells drive the outputs. -/
def execWsExtest (x : Extest) (s : State) : Host.Outcome State Fault Refusal :=
  underTm (fun t => boundaryDrives (shiftWbr x.wsi (captureIns x.pins s { t with wir := 1 }))) s

/-- WS_PRELOAD: the boundary register is loaded and drives nothing; what it held leaves on WSO. -/
def execWsPreload (b : Boundary) (s : State) : Host.Outcome State Fault Refusal :=
  wrapper (fun t => { shiftOut (bitList (shiftPath t.wbr)) (functional { t with wir := 2 }) with wbr := b }) s

/-- WS_CLAMP: the outputs are held from the boundary register; WBY is selected. -/
def execWsClamp (wsi : Bool) (s : State) : Host.Outcome State Fault Refusal :=
  underTm (fun t => shiftWby wsi (boundaryDrives { t with wir := 3 })) s

/-- The values of 03 Table 3.13 and 14 Table 14.2; the ring and the configuration port at those of 10 R248 and 15 R378, which Table 17.1
sets beside the two tables. -/
def safeOuts : OutPins := { pdAck := Config.ackTie, gl := Config.glTie, pswEn := true, offRdy := true }

/-- WS_SAFE: the outputs are held at the values of Table 3.13 and Table 14.2. -/
def execWsSafe (s : State) : Host.Outcome State Fault Refusal :=
  underTm (fun t => { t with wir := 4, mode := .isolation, outs := some safeOuts }) s

/-- The state of every domain is destroyed (17 R409): a free value. The time, the inputs, the gate tiles, the wrapper and
the model's own fields are no domain's state. -/
def destroy (s : State) : State :=
  let f := representable (Config.freeState s.free)
  { f with
    clk := { f.clk with now := s.clk.now, coreBase := min f.clk.coreBase s.clk.now, porstAt := s.clk.porstAt }
    lines := s.lines.foldl (fun t e => modify {} t e.1 (fun l => { l with pin := e.2.pin }))
      (tableOf {} (f.lines.map (fun e => (e.1, { e.2 with pin := false }))))
    mon := { f.mon with vmonPin := s.mon.vmonPin }
    pd := { f.pd with pin := s.pd.pin }
    before := [], tiles := s.tiles, test := s.test, free := s.free + 1, pending := s.pending }

/-- A test that destroys the state: scan or memory BIST. -/
def destroyUnderTm (f : Test → Test) (s : State) : Host.Outcome State Fault Refusal :=
  .next (if s.test.tm ∧ s.test.wrstN then { destroy s with test := f (functional s.test) } else s)

/-- WP_INTEST: with SCAN_EN 1 compressed scan through WPI and WPO, what leaves on which is free. DESIGN CHOICE: with SCAN_EN 0 nothing is
scanned, and the instruction is only selected (log entry 16). -/
def execWpIntest (wpi : BitVec 16) (s : State) : Host.Outcome State Fault Refusal :=
  if s.test.scanEn then destroyUnderTm (fun t => { t with wir := 5, wpi := wpi, wpo := fld (Config.freeWord s.free) 0 16 }) s
  else underTm (fun t => { functional t with wir := 5, wpi := wpi }) s

/-- MBIST_RUN (17 R410): the memory BIST starts. -/
def execMbistRun (s : State) : Host.Outcome State Fault Refusal :=
  destroyUnderTm (fun t => { t with wir := 8, run := true, stat := 0 }) s

/-- MBIST_DONE (17 R410): DONE in bit 15, one fail bit per memory in bits [5:0]. -/
def execMbistDone (fail : BitVec 6) (s : State) : Host.Outcome State Fault Refusal :=
  .next (if s.test.run then
    { s with test := { s.test with run := false, stat := 0x8000 ||| fail.setWidth 16 } }
  else s)

/-- MBIST_STAT: the result register is selected, and leaves on WSO. DESIGN CHOICE: bit 0 leaves first (log entry 16). -/
def execMbistStat (s : State) : Host.Outcome State Fault Refusal :=
  wrapper (fun t => shiftOut (bitList t.stat) (functional { t with wir := 9 })) s

end Sys2Proof.Machine
end

