-- ==== Sys2Proof/Machine/Registers.lean ====
section
/-! DEFINITION. The configuration port and the register map (15), with the field tables of the other sections. A register
is named by its word offset, CFG_ADDR: its byte offset in the window divided by 4. -/

namespace Sys2Proof.Machine

/-- A register word from the sum of its fields. -/
def word (v : Nat) : Word := BitVec.ofNat 32 v

/-! ### Reads of the shared registers -/

/-- Identity, interrupts, correction count, boot status, fault-log control, power, safety event (0x0_0000-0x0_07FF). -/
def readAdmin (s : State) (w : Nat) : Word :=
  let p := s.pwr
  match w with
  | 0x000 => 0x5C400102
  | 0x001 => 0x00000120
  | 0x040 => wordOf s.irq.cause 0
  | 0x041 => wordOf s.irq.cause 1
  | 0x042 => wordOf s.irq.mask 0
  | 0x043 => wordOf s.irq.mask 1
  | 0x080 => word (at32 16 s.mon.eccSrc.toNat + s.mon.eccCnt.toNat)
  | 0x081 => word s.mon.eccThr.toNat
  | 0x0C0 => word (flag32 31 s.bs.safe + flag32 30 s.bs.done + at32 28 s.bs.active.toNat + at32 20 s.bs.reasonB.toNat +
      at32 16 s.bs.reasonA.toNat)
  | 0x0C1 => word s.bs.errA.toNat
  | 0x0C2 => word s.bs.errB.toNat
  | 0x0C3 => s.bs.seq
  | 0x100 => word (at32 16 s.flog.lost.toNat + at32 8 s.flog.head.toNat + s.flog.entries.length)
  | 0x140 => word (flag32 4 p.wakeAtEn + p.target.toNat)
  | 0x141 => word (flag32 31 p.por + flag32 30 p.sys + flag32 29 p.wake + flag32 28 p.fallback + pwrCode p.st)
  | 0x142 => wordOf p.wakeT 0
  | 0x143 => wordOf p.wakeT 1
  | 0x144 => word (at32 8 s.srst.orphW.toNat + s.srst.orphR.toNat)
  | 0x154 => word (flag32 31 s.pd.nackValid + at32 16 s.pd.nackDom.toNat + s.pd.nackCh.toNat)
  | 0x158 => word (flag32 31 s.mon.vmon + s.mon.halts.toNat)
  | 0x180 => word (flag32 31 s.mon.safEn + s.mon.safEvt.toNat)
  | _ =>
    if 0x0C8 ≤ w ∧ w < 0x0D0 then wordOf s.bs.trail (w - 0x0C8)
    else if 0x150 ≤ w ∧ w < 0x154 then wordOf s.pd.closed (w - 0x150)
    else 0

/-- FLOG_Wk_i (09 R244): slot i holds the entry that lies (i - HEAD) mod 64 places behind the oldest. -/
def readLog (s : State) (i k : Nat) : Word :=
  match s.flog.entries[(i + 64 - s.flog.head.toNat) % 64]? with
  | some e => logWord e k
  | none => 0

/-- REQ_PEND_k, REQ_OVF_k, EVT_OVF_k (Tables 3.4, 3.5, 3.8); EVT_SW reads 0. -/
def readLines (s : State) (w : Nat) : Word :=
  if w < 0x440 then word ((List.range 8).map (fun j => at32 (4 * j) (line s (8 * (w - 0x400) + j)).cnt.toNat)).sum
  else if w < 0x450 then word ((List.range 32).map (fun j => flag32 j (line s (32 * (w - 0x440) + j)).ovf)).sum
  else if w < 0x460 then wordOf s.ev.ovf (w - 0x450)
  else 0

/-- CMD_ARGk. -/
def argWord (a : Args) (k : Nat) : Word :=
  match k with
  | 0 => a.a0 | 1 => a.a1 | 2 => a.a2 | 3 => a.a3 | 4 => a.a4 | _ => a.a5

/-- Replace CMD_ARGk. -/
def setArg (a : Args) (k : Nat) (v : Word) : Args :=
  match k with
  | 0 => { a with a0 := v } | 1 => { a with a1 := v } | 2 => { a with a2 := v }
  | 3 => { a with a3 := v } | 4 => { a with a4 := v } | _ => { a with a5 := v }

/-- The mailbox (Tables 13.4, 13.5); CMD_CTL reads 0. -/
def readMailbox (s : State) (w : Nat) : Word :=
  let c := s.cmd
  match w with
  | 0x801 => word (flag32 31 c.busy + flag32 30 c.done + flag32 29 c.err + flag32 28 c.lost + at32 16 c.code.toNat +
      at32 8 c.token.toNat + c.opcode.toNat)
  | 0x810 => c.res.r0
  | 0x811 => c.res.r1
  | 0x812 => c.res.r2
  | 0x813 => c.res.r3
  | _ => if 0x804 ≤ w ∧ w < 0x80A then argWord c.args (w - 0x804) else 0

/-- MOVER_BUSY: the movers `lo` to `lo` + 31 that are bound (Table 7.4). -/
def busyWord (s : State) (lo : Nat) : Word :=
  word ((List.range 32).map (fun m => flag32 m (mover s (lo + m)).ch.isSome)).sum

/-- A word of an address window or NV window (Tables 15.7, 15.8). -/
def windowWord (l : List Window) (k w : Nat) : Word :=
  match l[k]? with
  | none => 0
  | some x => match w with
    | 0 => fld x.base 0 32 &&& 0xFFFFF000
    | 1 => word (flag32 31 true + at32 20 x.dom.toNat + at32 16 x.port.toNat + (fld x.base 32 16 : BitVec 16).toNat)
    | 2 => fld x.limit 0 32
    | _ => word (fld x.limit 32 16 : BitVec 16).toNat

/-- Movers, peg commit and windows (0x0_3000-0x0_357F). PEND reads 1 up to the ccyc before the wrap (07 R202). -/
def readMovers (s : State) (w : Nat) : Word :=
  match w with
  | 0xC00 => word (at32 8 s.tres.toNat + s.ures.toNat)
  | 0xC02 => busyWord s 0
  | 0xC03 => busyWord s 32
  | 0xC04 => word (flag32 31 (s.pegCommits.any (fun c => decide (coreCycle s < c.wrap))))
  | _ =>
    if 0xC40 ≤ w ∧ w < 0xD40 then windowWord s.wins ((w - 0xC40) / 4) (w % 4)
    else if 0xD40 ≤ w ∧ w < 0xD60 then windowWord s.nvwins ((w - 0xD40) / 4) (w % 4)
    else 0

/-- The peg pointer of the port cycle in progress (07 R200). -/
def pegPointer (s : State) (p : Port) : Nat := (if p.ratio then coreCycle s / 2 else coreCycle s) % 64

/-- The channel of a port's holder. -/
def holderChan (s : State) (p : Port) (h : Requester) : Nat :=
  match h with
  | .fetch c => c.toNat
  | .mover m => match p.reqs.find? (fun q => q.who == h) with
    | some q => q.ch
    | none => ((mover s m.toNat).ch).getD 0

/-- PORT_STAT (Table 7.10). -/
def portStat (s : State) (p : Port) : Word :=
  word (match p.holder with
    | none => pegPointer s p
    | some h => at32 16 (holderChan s p h) + (match h with
        | .fetch _ => flag32 14 true
        | .mover m => at32 8 m.toNat) + flag32 7 true + pegPointer s p)

/-- PORT_STARVE (Table 7.15). -/
def starveWord (v : Starve) : Word :=
  word (flag32 31 v.valid + at32 16 v.ch.toNat + at32 8 v.mover.toNat + flag32 7 v.fetch + v.cls.toNat)

/-- PORT_CFG (Table 15.6). -/
def portCfg (p : Port) : Word :=
  word (at32 24 p.wdCred + at32 16 p.rqCred + flag32 8 p.en + flag32 3 p.fetch + flag32 2 p.stream + flag32 1 p.ratio +
    flag32 0 p.used)

/-- Word `o` of the block of port `n`. -/
def readPort (s : State) (n o : Nat) : Word :=
  let p := port s n
  match o with
  | 0 => portStat s p
  | 1 => word (at32 16 p.thrTimed.toNat + p.thrBulk.toNat)
  | 2 => word p.thrUrgent.toNat
  | 3 => starveWord p.starve
  | 4 => portCfg p
  | _ =>
    if 0x40 ≤ o ∧ o < 0x80 then (get 0 s.pegSh (pegKey n (o - 0x40))).setWidth 32
    else if 0x80 ≤ o ∧ o < 0xC0 then (pegIn s n (o - 0x80) (coreCycle s)).setWidth 32
    else 0

/-- The engine-side gate registers (Table 10.16) and GATE_STAGE. -/
def readGate (s : State) (w : Nat) : Word :=
  let g := s.gate
  if w < 0x1804 then wordOf g.map (w - 0x1800)
  else if w < 0x1808 then wordOf g.evt (w - 0x1804)
  else if w = 0x1808 then
    word (flag32 31 g.ringValid + at32 16 g.ringTile.toNat + flag32 10 g.ringUntaken + flag32 9 g.ringTimeout +
      flag32 8 g.ringParity + g.ringKind.toNat)
  else if 0x1A00 ≤ w ∧ w < 0x1AB4 then ruleWord g.stage (w - 0x1A00)
  else 0

/-- ROLE of GL_ID (Table 11.7). -/
def roleCode : Role → Nat
  | .standalone => 0 | .master => 1 | .member => 2

/-- ROLL_BAD_k. -/
def rollBad (r : Roll) (k : Nat) : Word :=
  match r.named[k]? with
  | some x => word (flag32 31 true + at32 16 x.2 + x.1)
  | none => 0

/-- The roll registers as they read: 0 on a member (11 Table 11.7). -/
def rollShown (s : State) : Roll := if s.gl.role = .member then {} else s.roll

/-- Ridge time, guyline, epoch, digests, commit, roll call (Table 11.7); the captured words are those of the capture
registers (15 R379). DESIGN CHOICE: GL_DLY shows the low 16 bits of a larger D (log entry 46). -/
def readRidge (s : State) (w : Nat) : Word :=
  let g := s.gl
  let r := rollShown s
  match w with
  | 0x1C00 => wordOf s.clk.ridge 0
  | 0x1C01 => s.cfg.capRidge
  | 0x1C02 => word (flag32 21 g.dnUsed + flag32 20 g.upUsed + at32 18 (roleCode g.role) + g.instId.toNat)
  | 0x1C03 => word g.instCount.toNat
  | 0x1C04 => word (at32 16 g.tsBound.toNat + g.syncPer.toNat)
  | 0x1C05 => word g.lead.toNat
  | 0x1C06 => word g.tail.toNat
  | 0x1C08 => word (at32 8 g.offset.toNat + flag32 3 (s.clk.slewRem != 0) + flag32 2 g.acq + flag32 1 g.dnLink.up +
      flag32 0 g.upLink.up)
  | 0x1C09 => word (hopDelay s % 65536)
  | 0x1C0A => word (at32 24 g.steps.toNat + at32 16 g.late.toNat + at32 8 g.drop.toNat + g.bad.toNat)
  | 0x1C10 => s.dig.epoch
  | 0x1C18 => wordOf s.dig.recd 0
  | 0x1C20 => wordOf s.dig.act 0
  | 0x1C28 => s.com.sel.setWidth 32
  | 0x1C29 => word (flag32 31 s.com.armed + flag32 30 s.dig.recPend)
  | 0x1C2A => wordOf s.com.t 0
  | 0x1C2B => s.cfg.capCommit
  | 0x1C30 => s.com.ep
  | 0x1C40 => word (flag32 31 r.done + flag32 30 r.active + r.round.toNat)
  | 0x1C41 => word r.seen.length
  | 0x1C42 => word r.nbad.toNat
  | _ =>
    if 0x1C19 ≤ w ∧ w < 0x1C20 then wordOf s.cfg.capRec (w - 0x1C19)
    else if 0x1C21 ≤ w ∧ w < 0x1C28 then wordOf s.cfg.capAct (w - 0x1C21)
    else if 0x1C2C ≤ w ∧ w < 0x1C30 then wordOf s.com.gates (w - 0x1C2C)
    else if 0x1C44 ≤ w ∧ w < 0x1C54 then rollBad r (w - 0x1C44)
    else 0

/-- ROLL_SEEN_k. -/
def rollSeen (r : Roll) (k : Nat) : Word := word ((List.range 32).map (fun j => flag32 j (r.seen.contains (32 * k + j)))).sum

/-- The route shadows and the routes in force (0x1_0000-0x1_BFFF). -/
def readRoute (s : State) (w : Nat) : Word :=
  if w < 0x4200 then get 0 s.shadow.req (w - 0x4000)
  else if w < 0x4400 then get 0 s.routes.req (w - 0x4200)
  else if w < 0x4440 then get 0 s.shadow.glob (w - 0x4400)
  else if w < 0x4480 then get 0 s.routes.glob (w - 0x4440)
  else if w < 0x5000 then 0
  else if w < 0x6000 then get 0 s.shadow.evt (w - 0x5000)
  else get 0 s.routes.evt (w - 0x6000)

/-! ### Reads of a per-channel block (04 Table 4.1; 15 Table 15.5) -/

/-- CH_STAT (Table 4.3). -/
def chStat (s : State) (ch : Nat) : Word :=
  let c := chan s ch
  word (at32 16 c.waitArg.toNat + flag32 12 c.haltPend + flag32 11 c.dlArmed + flag32 10 c.parkSrc + flag32 9 c.inMove +
    flag32 8 c.parkPend + flag32 7 (moverOf s ch).isSome + at32 4 (waitCode c.waitOn) + stateCode c.st)

/-- CH_CFG (Table 4.6); PRIO reads its shadow (00 Table 0.4). -/
def chCfg (c : Channel) : Word :=
  word (at32 16 c.homeDom.toNat + flag32 15 c.autoResume + flag32 14 c.pin + at32 8 c.mid.toNat + flag32 6 c.assigned +
    flag32 5 c.priv + at32 2 c.prioSh.toNat + (clsCode c.cls).toNat)

/-- FAULT_INFO (Table 9.1). -/
def faultInfoWord (f : FaultInfo) : Word :=
  word (flag32 31 f.valid + at32 16 f.port.toNat + at32 8 f.detail.toNat + at32 4 f.dir.toNat + (causeCode f.cause).toNat)

/-- The words of a program address (Table 4.8). -/
def paddrLo (p : PAddr) : Word := fld p.addr 0 32 &&& 0xFFFFFFF8
/-- See `paddrLo`. -/
def paddrHi (p : PAddr) : Word := word (flag32 31 p.sys + (fld p.addr 32 16 : BitVec 16).toNat)

/-- The upper word of a 48-bit address. -/
def addrHi (a : BitVec 48) : Word := word (fld a 32 16 : BitVec 16).toNat

/-- The 64-bit registers of the block: the word offset of the _LO word, and both words as they stand. -/
def chPair (c : Channel) (o : Nat) : Option (Word × Word) :=
  match o with
  | 4 => some (paddrLo c.entry, paddrHi c.entry)
  | 6 => some (paddrLo c.pc, paddrHi c.pc)
  | 8 => some (fld c.a.r0 0 32, addrHi c.a.r0)
  | 10 => some (fld c.a.r1 0 32, addrHi c.a.r1)
  | 12 => some (fld c.a.r2 0 32, addrHi c.a.r2)
  | 14 => some (fld c.a.r3 0 32, addrHi c.a.r3)
  | 24 => some (wordOf c.dl 0, wordOf c.dl 1)
  | 26 => some (fld c.faultAddr 0 32, addrHi c.faultAddr)
  | 30 => some (paddrLo c.faultPc, paddrHi c.faultPc)
  | _ => none

/-- Word `o` of the block of channel `ch`. -/
def readChan (s : State) (ch o : Nat) : Word :=
  let c := chan s ch
  match chPair c o with
  | some p => p.1
  | none =>
    match o with
    | 0 => word (flag32 0 c.en)
    | 1 => chStat s ch
    | 2 => chCfg c
    | 3 => word (at32 16 (wtagCount s ch) + rtagCount s ch)
    | 16 => c.l.r0
    | 17 => c.l.r1
    | 18 => c.l.r2
    | 19 => c.l.r3
    | 20 => word c.moveRd.toNat
    | 21 => word c.moveWr.toNat
    | 22 => c.watchVal
    | 23 => word c.watchCnt.toNat
    | 28 => faultInfoWord c.faultInfo
    | 29 => 0
    | _ => s.cfg.capCh

/-! ### Reads (15 R374-R379) -/

/-- The register is held in AO (Table 15.4). -/
def heldInAo (w : Nat) : Bool :=
  (decide (w < 0x300) && w != 0x080 && w != 0x081 && w != 0x144 && w != 0x180) ||
  (decide (0x1C00 ≤ w) && decide (w < 0x1C10)) || (decide (0x1C40 ≤ w) && decide (w < 0x1C54))

/-- CORE and SRAM answer: in RUN, and during boot and a wake from RETAIN or OFF_RDY (01 R29, 15 R377). -/
def coreAnswers (s : State) : Bool := coreOn s || (s.pwr.st == .waking && s.pwr.dozeW.isNone)

/-- The content of a register of the block outside the gate tiles. An offset that no table names reads 0 (15 R376). -/
def readReg (s : State) (w : Nat) : Word :=
  if w < 0x200 then readAdmin s w
  else if w < 0x300 then readLog s ((w - 0x200) / 4) (w % 4)
  else if w < 0x400 then 0
  else if w < 0x480 then readLines s w
  else if w < 0x800 then 0
  else if w < 0x840 then readMailbox s w
  else if w < 0xC00 then 0
  else if w < 0xD60 then readMovers s w
  else if w < 0x1000 then 0
  else if w < 0x1800 then readPort s ((w - 0x1000) / 0x100) (w % 0x100)
  else if w < 0x1AB4 then readGate s w
  else if w < 0x1C00 then 0
  else if w < 0x1C54 then readRidge s w
  else if w < 0x2800 then 0
  else if w < 0x3000 then rollSeen (rollShown s) (w - 0x2800)
  else if w < 0x3400 then readWord s.cmd.buf (4 * (w - 0x3000))
  else if w < 0x4000 then 0
  else if w < 0x7000 then readRoute s w
  else if w < 0x20000 then 0
  else if w < 0x28000 then readChan s ((w - 0x20000) / 32) (w % 32)
  else 0

/-- A read of the first word of a group loads its capture register with what the block holds (15 R379, Table 15.2). -/
def capture (c : HostPort) (s : State) (w : Nat) : HostPort :=
  if w = 0x1C00 then { c with capRidge := wordOf s.clk.ridge 1 }
  else if w = 0x1C2A then { c with capCommit := wordOf s.com.t 1 }
  else if w = 0x1C18 then { c with capRec := fld s.dig.recd 32 224 }
  else if w = 0x1C20 then { c with capAct := fld s.dig.act 32 224 }
  else if 0x20000 ≤ w ∧ w < 0x28000 then
    match chPair (chan s ((w - 0x20000) / 32)) (w % 32) with
    | some p => { c with capCh := p.2 }
    | none => c
  else c

/-- The parity of an access (Table 15.1): over the address with CFG_WE, and over CFG_WDATA. -/
def accessParity (we : Bool) (addr : BitVec 18) (data : Word) : BitVec 2 :=
  BitVec.ofBool (oddParity data) ++ BitVec.ofBool (oddParity (BitVec.ofBool we ++ addr))

/-- An access with bad parity is answered with CFG_ERR and not performed (15 R375). -/
def portError (s : State) : State := answer 0 true s

/-- A read that is performed. -/
def doRead (w : Nat) (s : State) : State :=
  if !heldInAo w && !coreAnswers (atStart s) then hostRead 0 s
  else if 0x30000 ≤ w then hostTileRead ((w - 0x30000) / 0x200) (w % 0x200) s
  else hostRead (readReg (atStart s) w) { s with cfg := capture s.cfg (atStart s) w }

/-- A read of any register takes effect. -/
def effCaptureRead (addr : BitVec 18) (par : ReadPar) (s : State) : State :=
  if par.par ≠ accessParity false addr par.wdata then portError s else doRead addr.toNat s

/-- CAPTURE_READ. -/
def execCaptureRead (addr : BitVec 18) (par : ReadPar) (s : State) : Host.Outcome State Fault Refusal :=
  .next (hostAccess (.captureRead addr par) (effCaptureRead addr par) s)

/-- A read of a word of a tile's block takes effect. -/
def effTileRegisterRead (g : TileNo) (word : BitVec 9) (s : State) : State := doRead (0x30000 + 0x200 * g.toNat + word.toNat) s

/-- TILE_REGISTER_READ (10 R274). -/
def execTileRegisterRead (g : TileNo) (word : BitVec 9) (s : State) : Host.Outcome State Fault Refusal :=
  .next (hostAccess (.tileRegisterRead g word) (effTileRegisterRead g word) s)

/-! ### Writes -/

/-- PWR_CTL (Table 14.7). -/
def writePwrCtl (v : Word) (s : State) : State :=
  let s := { s with pwr := { s.pwr with wakeAtEn := bit v 4 } }
  match (fld v 0 2 : BitVec 2).toNat with
  | 0 => writeTargetRun s
  | 1 => writeTargetLow .doze s
  | 2 => writeTargetLow .retain s
  | _ => writeTargetLow .off s

/-- The administrative registers. -/
def writeAdmin (w : Nat) (v : Word) (s : State) : State :=
  match w with
  | 0x040 => { s with irq := { s.irq with cause := clearWord s.irq.cause 0 (w1cMask s w v) } }
  | 0x041 => { s with irq := { s.irq with cause := clearWord s.irq.cause 1 (w1cMask s w v) } }
  | 0x042 => { s with irq := { s.irq with mask := putWord s.irq.mask 0 v } }
  | 0x043 => { s with irq := { s.irq with mask := putWord s.irq.mask 1 v } }
  | 0x080 => writeCount (fld v 0 16) s
  | 0x081 => { s with mon := { s.mon with eccThr := fld v 0 16 } }
  | 0x100 => { s with flog := { s.flog with lost := fld v 16 8 } }
  | 0x101 => if bit v 0 then popLog s else s
  | 0x140 => writePwrCtl v s
  | 0x141 =>
    let m := w1cMask s w v
    { s with pwr := { s.pwr with
      por := s.pwr.por && !bit m 31, sys := s.pwr.sys && !bit m 30, wake := s.pwr.wake && !bit m 29
      fallback := s.pwr.fallback && !bit m 28 } }
  | 0x142 => { s with pwr := { s.pwr with wakeT := putWord s.pwr.wakeT 0 v } }
  | 0x143 => { s with pwr := { s.pwr with wakeT := putWord s.pwr.wakeT 1 v } }
  | 0x154 => { s with pd := { s.pd with nackValid := s.pd.nackValid && !bit (w1cMask s w v) 31 } }
  | 0x158 => { s with mon := { s.mon with halts := fld v 0 16 } }
  | 0x180 => { s with mon := { s.mon with safEn := bit v 31, safEvt := fld v 0 12 } }
  | _ => s

/-- REQ_OVF_k, EVT_OVF_k, EVT_SW. -/
def writeLines (w : Nat) (v : Word) (s : State) : State :=
  if w < 0x440 then s
  else if w < 0x450 then
    let m := w1cMask s w v
    (List.range 32).foldl (fun s j =>
      let n := 32 * (w - 0x440) + j
      if m.getLsbD j then setLine n { line s n with ovf := false } s else s) s
  else if w < 0x460 then { s with ev := { s.ev with ovf := clearWord s.ev.ovf (w - 0x450) (w1cMask s w v) } }
  else if w = 0x460 then raiseEvent (fld v 0 12) s
  else s

/-- The mailbox: CMD_CTL issues a command (13 R333). -/
def writeMailbox (w : Nat) (v : Word) (s : State) : State :=
  if w = 0x800 then issue (fld v 0 8) (fld v 8 8) {} s
  else if w = 0x801 then { s with cmd := { s.cmd with lost := s.cmd.lost && !bit (w1cMask s w v) 28 } }
  else if 0x804 ≤ w ∧ w < 0x80A then { s with cmd := { s.cmd with args := setArg s.cmd.args (w - 0x804) v } }
  else s

/-- A peg as written over an old one: a reserved KIND or OWNER keeps its value (07 Table 7.7, 00 R15). DESIGN CHOICE: beside a reserved
KIND, which is kept, OWNER is judged against the KIND kept (log entry 46). -/
def pegWrite (old : BitVec 16) (v : Word) : BitVec 16 :=
  let kind : BitVec 2 := if fld v 14 2 = (3 : BitVec 2) then fld old 14 2 else fld v 14 2
  let owner : BitVec 10 := fld v 0 10
  let ok := (kind = 0 ∧ owner = 0) ∨ kind = 1 ∨ (kind = 2 ∧ owner.toNat ≤ 2)
  BitVec.ofNat 16 (at32 14 kind.toNat + (if ok then owner else fld old 0 10).toNat)

/-- A port's block. -/
def writePort (n o : Nat) (v : Word) (s : State) : State :=
  match o with
  | 1 => updPort n (fun p => { p with thrTimed := fld v 16 16, thrBulk := fld v 0 16 }) s
  | 2 => updPort n (fun p => { p with thrUrgent := fld v 0 16 }) s
  | 3 =>
    let m := w1cMask s (0x1003 + 0x100 * n) v
    updPort n (fun p => { p with starve := { p.starve with valid := p.starve.valid && !bit m 31 } }) s
  | _ =>
    if 0x40 ≤ o ∧ o < 0x80 then
      let k := pegKey n (o - 0x40)
      { s with pegSh := put 0 s.pegSh k (pegWrite (get 0 s.pegSh k) v) }
    else s

/-- The engine-side gate registers. -/
def writeGate (w : Nat) (v : Word) (s : State) : State :=
  let g := s.gate
  if 0x1804 ≤ w ∧ w < 0x1808 then { s with gate := { g with evt := clearWord g.evt (w - 0x1804) (w1cMask s w v) } }
  else if w = 0x1808 then { s with gate := { g with ringValid := g.ringValid && !bit (w1cMask s w v) 31 } }
  else if 0x1A00 ≤ w ∧ w < 0x1AB4 then
    let s := if usesStage s.cmd.job then spoil s else s
    { s with gate := { s.gate with stage := putRule s.gate.stage (w - 0x1A00) v } }
  else s

/-- A word of CMD_BUF. A command in progress that reads or writes CMD_BUF is spoiled (13 R335). -/
def writeBuf (w : Nat) (v : Word) (s : State) : State :=
  let s := if usesBuf s.cmd.job then spoil s else s
  { s with cmd := { s.cmd with buf := writeBytes s.cmd.buf (4 * w) 4 v.toNat } }

/-- The writable registers of Table 11.7. -/
def writeRidge (w : Nat) (v : Word) (s : State) : State :=
  if w = 0x1C0A then
    { s with gl := { s.gl with steps := fld v 24 8, late := fld v 16 8, drop := fld v 8 8, bad := fld v 0 8 } }
  else if w = 0x1C28 then { s with com := { s.com with sel := fld v 0 10 } }
  else if 0x1C2C ≤ w ∧ w < 0x1C30 then { s with com := { s.com with gates := putWord s.com.gates (w - 0x1C2C) v } }
  else s

/-- The route shadows (15 R384); a commit of the present ccyc takes them as they stood before (R385). -/
def writeRoute (w : Nat) (v : Word) (s : State) : State :=
  let s := { s with shadowOld := some (oldShadow s) }
  let r := s.shadow
  if w < 0x4200 then { s with shadow := { r with req := put 0 r.req (w - 0x4000) (v &&& reqMask) } }
  else if 0x4400 ≤ w ∧ w < 0x4440 then { s with shadow := { r with glob := put 0 r.glob (w - 0x4400) (v &&& globMask) } }
  else if 0x5000 ≤ w ∧ w < 0x6000 then { s with shadow := { r with evt := put 0 r.evt (w - 0x5000) (v &&& evtMask) } }
  else s

/-- A, L and CH_ENTRY accept writes (04 R92); a channel that leaves HALTED or PARKED in the present ccyc has been in it (01 R21). -/
def openToHost (s : State) (c : Channel) : Bool :=
  c.st == .idle || c.st == .halted || c.st == .parked || c.leftAt == some s.clk.now

/-- CH_ENTRY as a host write would leave it, unless the write is dropped as a whole (04 R93, R107). -/
def entryWrite (s : State) (c : Channel) (hi : Bool) (v : Word) : PAddr :=
  let e : PAddr := if hi then { sys := bit v 31, addr := (fld v 0 16 : BitVec 16) ++ (fld c.entry.addr 0 32 : BitVec 32) }
    else { c.entry with addr := (fld c.entry.addr 32 16 : BitVec 16) ++ (v &&& 0xFFFFFFF8) }
  let noFetch := !portRange.any (fun n => (port s n).used && (port s n).fetch)
  if hi && e.sys && (c.cls == .urgent || noFetch) then c.entry
  else if !e.sys && decide (0x3FFF8 < e.addr.toNat) then c.entry
  else e

/-- CH_CTL.EN (04 R97). -/
def writeEnable (ch : Chan) (en : Bool) (s : State) : State := if en then effChStart ch s else effChAbort ch s

/-- A per-channel block. -/
def writeChan (ch o : Nat) (v : Word) (s : State) : State :=
  let c := chan s ch
  if o = 0 then writeEnable (BitVec.ofNat 10 ch) (bit v 0) s
  else if o = 2 then
    if c.assigned then updChan ch (fun c => { c with autoResume := bit v 15, pin := bit v 14, prioSh := fld v 2 3 }) s else s
  else if !openToHost s c then s
  else if o = 4 ∨ o = 5 then
    if c.assigned then setChan ch { c with entry := entryWrite s c (o == 5) v } s else s
  else if 8 ≤ o ∧ o < 16 then
    let a := reg4 c.a ((o - 8) / 2)
    let a' : BitVec 48 := if o % 2 = 0 then (fld a 32 16 : BitVec 16) ++ v else (fld v 0 16 : BitVec 16) ++ (fld a 0 32 : BitVec 32)
    setChan ch { c with a := setReg4 c.a ((o - 8) / 2) a' } { s with cfg := { s.cfg with oldA := some (ch, engineA s ch) } }
  else if 16 ≤ o ∧ o < 20 then setChan ch { c with l := setReg4 c.l (o - 16) v } s
  else s

/-- A write of a register outside the gate tiles, that its domain accepts. -/
def writeReg (w : Nat) (v : Word) (s : State) : State :=
  if w < 0x200 then writeAdmin w v s
  else if w < 0x400 then s
  else if w < 0x480 then writeLines w v s
  else if w < 0x800 then s
  else if w < 0x840 then writeMailbox w v s
  else if w = 0xC04 then pegCommitWrite (fld v 0 8) (bit v 8) false s
  else if w < 0x1000 then s
  else if w < 0x1800 then writePort ((w - 0x1000) / 0x100) (w % 0x100) v s
  else if w < 0x1AB4 then writeGate w v s
  else if w < 0x1C54 then writeRidge w v s
  else if w < 0x3000 then s
  else if w < 0x3400 then writeBuf (w - 0x3000) v s
  else if w < 0x4000 then s
  else if w < 0x7000 then writeRoute w v s
  else if w < 0x20000 then s
  else if w < 0x28000 then writeChan ((w - 0x20000) / 32) (w % 32) v s
  else s

/-- A write that is performed, or dropped by its domain; a write of CMD_CTL during boot or wake sequence sets LOST
(01 R29, 15 R377). -/
def doWrite (w : Nat) (v : Word) (s : State) : State :=
  let s := hostWrote w s
  if heldInAo w then writeReg w v s
  else if w = 0x800 then if mailboxOn s then writeReg w v s else s
  else if !coreOn s then s
  else if 0x30000 ≤ w then hostTileWrite ((w - 0x30000) / 0x200) (w % 0x200) v s
  else writeReg w v s

/-- A write of any register takes effect. -/
def effRegisterWrite (addr : BitVec 18) (data : Word) (par : BitVec 2) (s : State) : State :=
  if par ≠ accessParity true addr data then portError s else doWrite addr.toNat data s

/-- REGISTER_WRITE. -/
def execRegisterWrite (addr : BitVec 18) (data : Word) (par : BitVec 2) (s : State) : Host.Outcome State Fault Refusal :=
  .next (hostAccess (.registerWrite addr data par) (effRegisterWrite addr data par) s)

end Sys2Proof.Machine
end

