-- ==== Sys2Proof/Machine/Dispatch.lean ====
section
/-! DEFINITION. One arm per command, each a direct call of its meaning. -/

namespace Sys2Proof.Machine

/-- The effect of a command on everything but the queue. -/
def exec (i : Instr) (s : State) : Host.Outcome State Fault Refusal :=
  match i with
  | .move ch => Sys2Proof.Machine.execMove ch s
  | .puti ch => Sys2Proof.Machine.execPuti ch s
  | .seta ch => Sys2Proof.Machine.execSeta ch s
  | .adda ch => Sys2Proof.Machine.execAdda ch s
  | .setl ch => Sys2Proof.Machine.execSetl ch s
  | .loop ch => Sys2Proof.Machine.execLoop ch s
  | .jump ch => Sys2Proof.Machine.execJump ch s
  | .link ch => Sys2Proof.Machine.execLink ch s
  | .wait ch => Sys2Proof.Machine.execWait ch s
  | .signal ch => Sys2Proof.Machine.execSignal ch s
  | .signalF ch => Sys2Proof.Machine.execSignalF ch s
  | .fence ch => Sys2Proof.Machine.execFence ch s
  | .watch ch => Sys2Proof.Machine.execWatch ch s
  | .stop ch => Sys2Proof.Machine.execStop ch s
  | .chStart ch => Sys2Proof.Machine.execChStart ch s
  | .chAbort ch => Sys2Proof.Machine.execChAbort ch s
  | .evtSw event => Sys2Proof.Machine.execEvtSw event s
  | .pegCommit ports prio => Sys2Proof.Machine.execPegCommit ports prio s
  | .pegCommitWrap => Sys2Proof.Machine.execPegCommitWrap s
  | .flogPop pop => Sys2Proof.Machine.execFlogPop pop s
  | .gateLogPop tile pop => Sys2Proof.Machine.execGateLogPop tile pop s
  | .gateRuleWrite tile word data => Sys2Proof.Machine.execGateRuleWrite tile word data s
  | .gateCtlWrite tile en => Sys2Proof.Machine.execGateCtlWrite tile en s
  | .tileRegisterRead tile word => Sys2Proof.Machine.execTileRegisterRead tile word s
  | .captureRead addr par => Sys2Proof.Machine.execCaptureRead addr par s
  | .registerWrite addr data par => Sys2Proof.Machine.execRegisterWrite addr data par s
  | .pwrTargetLow target => Sys2Proof.Machine.execPwrTargetLow target s
  | .pwrTargetRun => Sys2Proof.Machine.execPwrTargetRun s
  | .lowPowerEntry => Sys2Proof.Machine.execLowPowerEntry s
  | .wakeAt => Sys2Proof.Machine.execWakeAt s
  | .dozeExit => Sys2Proof.Machine.execDozeExit s
  | .corePswAck census found => Sys2Proof.Machine.execCorePswAck census found s
  | .porstN => Sys2Proof.Machine.execPorstN s
  | .sysrstN => Sys2Proof.Machine.execSysrstN s
  | .boot a b loadA loadB census lock => Sys2Proof.Machine.execBoot a b loadA loadB census lock s
  | .bootPortTimeout copyB offset => Sys2Proof.Machine.execBootPortTimeout copyB offset s
  | .loadProgramStore tok nobump offset nbytes rsv => Sys2Proof.Machine.execLoadProgramStore tok nobump offset nbytes rsv s
  | .loadOptionArea tok nobump offset nbytes rsv ans => Sys2Proof.Machine.execLoadOptionArea tok nobump offset nbytes rsv ans s
  | .verify tok copyB rsv ans lock => Sys2Proof.Machine.execVerify tok copyB rsv ans lock s
  | .verifyRead tok copyB offset nbytes rsv ans => Sys2Proof.Machine.execVerifyRead tok copyB offset nbytes rsv ans s
  | .restructure tok copyB rsv ans load census lock => Sys2Proof.Machine.execRestructure tok copyB rsv ans load census lock s
  | .commitAt tok t e => Sys2Proof.Machine.execCommitAt tok t e s
  | .park tok ch rsv => Sys2Proof.Machine.execPark tok ch rsv s
  | .resume tok ch rsv => Sys2Proof.Machine.execResume tok ch rsv s
  | .skip tok ch rsv => Sys2Proof.Machine.execSkip tok ch rsv s
  | .resetCh tok ch rsv => Sys2Proof.Machine.execResetCh tok ch rsv s
  | .engineSoftReset tok ch rsv => Sys2Proof.Machine.execEngineSoftReset tok ch rsv s
  | .softResetDrainEnd => Sys2Proof.Machine.execSoftResetDrainEnd s
  | .gateUpdate tok tile rsv => Sys2Proof.Machine.execGateUpdate tok tile rsv s
  | .gateUpdateStageOnly tok tile rsv => Sys2Proof.Machine.execGateUpdateStageOnly tok tile rsv s
  | .pegUpdate tok ports prio fromBuf rsv => Sys2Proof.Machine.execPegUpdate tok ports prio fromBuf rsv s
  | .routeUpdate tok => Sys2Proof.Machine.execRouteUpdate tok s
  | .digest tok => Sys2Proof.Machine.execDigest tok s
  | .rollcall tok e lead rsv => Sys2Proof.Machine.execRollcall tok e lead rsv s
  | .selftest tok tests rsv failing => Sys2Proof.Machine.execSelftest tok tests rsv failing s
  | .readLog tok n pop rsv => Sys2Proof.Machine.execReadLog tok n pop rsv s
  | .setTime tok t => Sys2Proof.Machine.execSetTime tok t s
  | .reqEdge line level => Sys2Proof.Machine.execReqEdge line level s
  | .channelSelect => Sys2Proof.Machine.execChannelSelect s
  | .arbiterDecision n => Sys2Proof.Machine.execArbiterDecision n s
  | .slotReserve m tag => Sys2Proof.Machine.execSlotReserve m tag s
  | .readIssue who tag => Sys2Proof.Machine.execReadIssue who tag s
  | .writeLaunch m tag => Sys2Proof.Machine.execWriteLaunch m tag s
  | .moveRetire ch => Sys2Proof.Machine.execMoveRetire ch s
  | .readResponseBeat n beat => Sys2Proof.Machine.execReadResponseBeat n beat s
  | .writeResponse n resp => Sys2Proof.Machine.execWriteResponse n resp s
  | .creditReturn n wd => Sys2Proof.Machine.execCreditReturn n wd s
  | .haltEntry ch source => Sys2Proof.Machine.execHaltEntry ch source s
  | .parkEntry ch => Sys2Proof.Machine.execParkEntry ch s
  | .instantReached ch => Sys2Proof.Machine.execInstantReached ch s
  | .deadline ch => Sys2Proof.Machine.execDeadline ch s
  | .evtPulseOut line => Sys2Proof.Machine.execEvtPulseOut line s
  | .vmonLowAssert => Sys2Proof.Machine.execVmonLowAssert s
  | .vmonLowDeassert => Sys2Proof.Machine.execVmonLowDeassert s
  | .pdReqRise dom => Sys2Proof.Machine.execPdReqRise dom s
  | .quiesceDrained dom => Sys2Proof.Machine.execQuiesceDrained dom s
  | .pdReqFall dom => Sys2Proof.Machine.execPdReqFall dom s
  | .safetyCmp unit => Sys2Proof.Machine.execSafetyCmp unit s
  | .gateCheck tile input => Sys2Proof.Machine.execGateCheck tile input s
  | .gerrResponse tile dRead dWrite => Sys2Proof.Machine.execGerrResponse tile dRead dWrite s
  | .gateApply tile => Sys2Proof.Machine.execGateApply tile s
  | .tileReset tile denyAtReset => Sys2Proof.Machine.execTileReset tile denyAtReset s
  | .gateReport tile => Sys2Proof.Machine.execGateReport tile s
  | .gateRing which tile kind => Sys2Proof.Machine.execGateRing which tile kind s
  | .sync src tp => Sys2Proof.Machine.execSync src tp s
  | .slewCorrection => Sys2Proof.Machine.execSlewCorrection s
  | .syncSend => Sys2Proof.Machine.execSyncSend s
  | .echoReqSend => Sys2Proof.Machine.execEchoReqSend s
  | .echoReq src t1 => Sys2Proof.Machine.execEchoReq src t1 s
  | .echoRsp dst t1 turn => Sys2Proof.Machine.execEchoRsp dst t1 turn s
  | .frameSend down => Sys2Proof.Machine.execFrameSend down s
  | .gevtUp src mask => Sys2Proof.Machine.execGevtUp src mask s
  | .gevt src mask del => Sys2Proof.Machine.execGevt src mask del s
  | .gevtDelivery => Sys2Proof.Machine.execGevtDelivery s
  | .standaloneGevt => Sys2Proof.Machine.execStandaloneGevt s
  | .commit src t e => Sys2Proof.Machine.execCommit src t e s
  | .commitApply => Sys2Proof.Machine.execCommitApply s
  | .roll src round e tr => Sys2Proof.Machine.execRoll src round e tr s
  | .rollSlot => Sys2Proof.Machine.execRollSlot s
  | .rollRsp src round e digOk epochOk busy => Sys2Proof.Machine.execRollRsp src round e digOk epochOk busy s
  | .rollClose => Sys2Proof.Machine.execRollClose s
  | .rehashDone => Sys2Proof.Machine.execRehashDone s
  | .digestRecUpdate => Sys2Proof.Machine.execDigestRecUpdate s
  | .guylineLinkUp down => Sys2Proof.Machine.execGuylineLinkUp down s
  | .guylineLinkDown down => Sys2Proof.Machine.execGuylineLinkDown down s
  | .testMode pins => Sys2Proof.Machine.execTestMode pins s
  | .wsBypass b => Sys2Proof.Machine.execWsBypass b s
  | .wsExtest pins => Sys2Proof.Machine.execWsExtest pins s
  | .wsPreload b => Sys2Proof.Machine.execWsPreload b s
  | .wsClamp wsi => Sys2Proof.Machine.execWsClamp wsi s
  | .wsSafe => Sys2Proof.Machine.execWsSafe s
  | .wpIntest wpi => Sys2Proof.Machine.execWpIntest wpi s
  | .mbistRun => Sys2Proof.Machine.execMbistRun s
  | .mbistDone fail => Sys2Proof.Machine.execMbistDone fail s
  | .mbistStat => Sys2Proof.Machine.execMbistStat s
  | .supplyRemoval => Sys2Proof.Machine.execSupplyRemoval s
  | .checkerResetAssert tile => Sys2Proof.Machine.execCheckerResetAssert tile s
  | .guylineBadFrame r => Sys2Proof.Machine.execGuylineBadFrame r s
  | .reservedOpcodeInstruction ch => Sys2Proof.Machine.execReservedOpcodeInstruction ch s
  | .cmdReservedOpcode tok opcode => Sys2Proof.Machine.execCmdReservedOpcode tok opcode s

end Sys2Proof.Machine
end

