-- ==== Sys2Proof/Machine/Host.lean ====
section
/-! DEFINITION. The host's side of the configuration port (15 R373-R375): the effect of each host access, the answers that the port
drives, and the accesses that it serves one after the other. -/

namespace Sys2Proof.Machine

/-- The effect of a host access that the port has taken. -/
def runHost (i : Instr) (s : State) : State :=
  match i with
  | .evtSw event => effEvtSw event s
  | .chStart ch => effChStart ch s
  | .chAbort ch => effChAbort ch s
  | .gateRuleWrite g word data => effGateRuleWrite g word data s
  | .gateCtlWrite g en => effGateCtlWrite g en s
  | .gateLogPop g pop => effGateLogPop g pop s
  | .pegCommit ports prio => effPegCommit ports prio s
  | .flogPop pop => effFlogPop pop s
  | .loadProgramStore tok nobump offset nbytes rsv => effLoadProgramStore tok nobump offset nbytes rsv s
  | .loadOptionArea tok nobump offset nbytes rsv ans => effLoadOptionArea tok nobump offset nbytes rsv ans s
  | .verify tok copyB rsv ans lock => effVerify tok copyB rsv ans lock s
  | .verifyRead tok copyB offset nbytes rsv ans => effVerifyRead tok copyB offset nbytes rsv ans s
  | .restructure tok copyB rsv ans ld census lock => effRestructure tok copyB rsv ans ld census lock s
  | .commitAt tok t e => effCommitAt tok t e s
  | .park tok ch rsv => effPark tok ch rsv s
  | .resume tok ch rsv => effResume tok ch rsv s
  | .skip tok ch rsv => effSkip tok ch rsv s
  | .resetCh tok ch rsv => effResetCh tok ch rsv s
  | .engineSoftReset tok ch rsv => effEngineSoftReset tok ch rsv s
  | .gateUpdate tok g rsv => effGateUpdate tok g rsv s
  | .gateUpdateStageOnly tok g rsv => effGateUpdateStageOnly tok g rsv s
  | .pegUpdate tok ports prio fromBuf rsv => effPegUpdate tok ports prio fromBuf rsv s
  | .routeUpdate tok => effRouteUpdate tok s
  | .digest tok => effDigest tok s
  | .rollcall tok e lead rsv => effRollcall tok e lead rsv s
  | .selftest tok tests rsv failing => effSelftest tok tests rsv failing s
  | .readLog tok n pop rsv => effReadLog tok n pop rsv s
  | .setTime tok t => effSetTime tok t s
  | .cmdReservedOpcode tok opcode => effCmdReservedOpcode tok opcode s
  | .captureRead addr par => effCaptureRead addr par s
  | .tileRegisterRead g word => effTileRegisterRead g word s
  | .registerWrite addr data par => effRegisterWrite addr data par s
  | .pwrTargetLow t => writeTargetLow t s
  | .pwrTargetRun => writeTargetRun s
  | _ => s

/-- The outputs of the port in the present ccyc: an answer is driven for one CFG_CLK cycle (15 R374). -/
def drivePort (s : State) : State :=
  match s.cfg.ans with
  | some a =>
    if s.clk.now = a.due then
      { s with cfg := { s.cfg with ack := true, rdata := a.data, err := a.err, rpar := oddParity a.data } }
    else if a.due + 4 ≤ s.clk.now then { s with cfg := { s.cfg with ack := false, ans := none } }
    else s
  | none => s

/-- The next access that the host offers is taken once the port is free (15 R374). -/
def servePort (s : State) : State :=
  if cfgEdge s && decide (s.cfg.freeAt ≤ s.clk.now) && s.gate.held.isNone then
    match s.cfg.offered with
    | i :: rest => runHost i (answer 0 false { s with cfg := { s.cfg with offered := rest } })
    | [] => s
  else s

end Sys2Proof.Machine
end

