-- ==== Sys2Proof/Machine/Tick.lean ====
section
/-! DEFINITION. The passage of one ccyc: what the block does at a clock edge whatever is commanded (01 R25, R411). -/

namespace Sys2Proof.Machine

/-- The two TICK stages of IRQ[3:0] (03 R82, 01 R411). -/
def tickIrq (q : Irq) : Irq := { q with out := q.d1, d1 := irqLevels q }

/-- A SAFETY_CMP that waits for its TICK edge (17 R401). -/
def tickSafety (s : State) : State :=
  if s.irq.safetyPend then setCause 6 { s with irq := { s.irq with safetyPend := false } } else s

/-- A TICK edge, which begins each even ccyc; what AO samples of PD_REQ takes effect after CORE's own part of the ccyc (14 R364). -/
def tickEdge (s : State) : State :=
  tickLinks (queueReceived (checkGevts s.clk.ridge
    (tickSafety (sampleVmon (tickHandshakes { s with irq := tickIrq s.irq, clk := tickRidge s.clk })))))

/-! ### The end of a ccyc -/

/-- The request lines are sampled in the present ccyc: CORE runs, or DOZE is entered at its end (03 R75, 14 R349). -/
def linesOn (s : State) : Bool :=
  coreOn s || (s.pwr.lowAt == some s.clk.now && (s.pwr.st == .doze || s.pwr.dozeW.isSome))

/-- What the present ccyc brings when it ends; the shadows of a peg commit are taken. -/
def endCcyc (s : State) : State := if coreOn s then takeAt (coreCycle s) (endCore s) else sealCcyc s

/-- The edges of the ccyc in which a low-power state is entered are added to their counters (14 R349). -/
def lastEdges (edges : List Nat) (s : State) : State :=
  if s.pwr.lowAt = some s.clk.now then endLines (edges.foldl (fun s n => countEdge n s) s) else s

/-- The lines on which an edge is detected in the present ccyc. -/
def edgesOf (s : State) : List Nat := if linesOn s then edgesNow s else []

/-- The present ccyc to its end: what it brings, and the lines sampled. -/
def ccycEnd (s : State) : State :=
  let t := endCcyc s
  lastEdges (edgesOf s) (if linesOn t then clockLines t else t)

/-- The next ccyc begins, with nothing set, logged or written in it yet; the masks found late in the one before are no longer held. -/
def nextCcyc (s : State) : State :=
  { s with
    clk := { s.clk with now := s.clk.now + 1 }
    irq := { s.irq with fresh := [], old := s.irq.cause }
    flog := { s.flog with fresh := 0 }
    cfg := { s.cfg with wrote := [], oldA := none }
    gl := { s.gl with lateDel := 0 }
    gate := { s.gate with tx := [], rx := [], stops := [] }
    shadowOld := none, before := []
    mon := { s.mon with eccNow := 0, nvStop := s.mon.vmon } }

/-! ### The beginning of a ccyc -/

/-- The first of CORE's part of a new ccyc, which a host read of it sees: the edges of the ccyc before are handled (03 R70), and the
port cycles that begin have their credits (02 R56, 15 R382). -/
def coreStart (edges : List Nat) (s : State) : State :=
  if coreOn s then beginCredits (edges.foldl handleEdge s) else s

/-- CORE's part of a new ccyc: the events of the ccyc before are delivered, and the masks found late in it delivered, a fetched
beat that was held arrives, a freeze begins, aborts end whose last tag has returned, abandoned bivouacs are left, channels stopped and
started again start, NV writes under brown-out stop, port cycles begin. -/
def coreTick (late : BitVec 64) (s : State) : State :=
  let s := markFences (deliverMask late (deliverEvents s))
  let s := heldGroups (startAgain (wakeAbandoned (finishAborts (reactRails s))))
  let s := if cfgEdge s then jobsDue s else s
  beginCycles (stopNv s)

/-- CORE's part where it is clocked; where it is not, the mismatches of its last ccyc still have their effects (17 R401). -/
def coreEdge (late : BitVec 64) (s : State) : State := if coreOn s then coreTick late s else reactRails s

/-- AO's part of a new ccyc. -/
def aoEdge (s : State) : State :=
  if s.pwr.st = .off then s else drivePort (driveLinks (if s.clk.now % 2 = 0 then tickEdge s else s))

/-- What a host read of the CFG_CLK cycle that begins returns: the block as it stands now (15 R374). DESIGN CHOICE: of a per-channel
register too, whose ccyc among the four of the cycle the engine chooses (04 R91; log entry 18). -/
def keepStart (s : State) : State := if cfgEdge s then { s with start := s.toBlock } else s

/-- AO samples PD_REQ and CORE_PSW_ACK at a TICK edge (03 R86, 14 R348). -/
def pdEdge (s : State) : State := if s.clk.now % 2 = 0 ∧ s.pwr.st ≠ .off then sampleAck (samplePds s) else s

/-- One ccyc passes (log entry 1). With AO off no clock runs. -/
def tick (s : State) : State :=
  let t := pdEdge (coreEdge s.gl.lateDel (keepStart (coreStart (edgesOf s) (aoEdge (nextCcyc (ccycEnd s))))))
  if t.pwr.st = .off then t else servePort t

end Sys2Proof.Machine
end

