-- ==== Sys2Proof/Safety.lean ====
section
/-! DEFINITION. The terms in which the statements speak: when a channel executes an instruction, what a command leaves
unchanged, and the invariant of the machine. -/

namespace Sys2Proof.Safety

open Sys2Proof.Machine

/-! ### When an instruction executes -/

/-- Channel `ch` executes the word at CH_PC in the present ccyc, and it is `w`. -/
def atWord (s : State) (ch : Nat) (w : IWord) : Bool := mayExecute s ch && obtain s (chan s ch) == .word w

/-- Channel `ch` executes instruction `i` in the present ccyc. -/
def atInstr (s : State) (ch : Nat) (i : Yabex) : Bool :=
  mayExecute s ch && (match obtain s (chan s ch) with
    | .word w => decodeYabex w == .ok i
    | _ => false)

/-- The row of a Yabex opcode, for channel `ch` (05 Table 5.1): reserved opcodes have one row. -/
def rowOf (op : BitVec 4) (ch : Chan) : Instr :=
  match op.toNat with
  | 1 => .move ch | 2 => .puti ch | 3 => .seta ch | 4 => .adda ch | 5 => .setl ch | 6 => .loop ch | 7 => .jump ch
  | 8 => .link ch | 9 => .wait ch | 10 => .signal ch | 11 => .signalF ch | 12 => .fence ch | 13 => .watch ch
  | 14 => .stop ch | _ => .reservedOpcodeInstruction ch

/-- No fault of the channel is held, and no park of it is asked for. -/
def unstopped (s : State) (ch : Nat) : Bool := !stopping (chan s ch) && !(chan s ch).parkPend

/-- The source has not ended `n` bytes past CH_PC (04 R106). -/
def goesOn (s : State) (ch n : Nat) : Bool :=
  match obtain s (stepPc n (chan s ch)) with
  | .past _ => false
  | _ => true

/-! ### Frames -/

/-- Every byte of the program store and of CMD_BUF reads as before. -/
def KeepsMemory (s t : State) : Prop :=
  (∀ a, readByte t.prog a = readByte s.prog a) ∧ ∀ a, readByte t.cmd.buf a = readByte s.cmd.buf a

/-- No channel but `ch` has changed. -/
def KeepsOthers (ch : Nat) (s t : State) : Prop := ∀ k, k ≠ ch → chan t k = chan s k

/-- Nothing in the whole state but channel `ch` has changed. -/
def OnlyChannel (ch : Nat) (s t : State) : Prop := KeepsOthers ch s t ∧ { t with chans := s.chans } = s

/-- The same, but for what the ccyc may take back (04 R99). -/
def OnlyChannelNoted (ch : Nat) (s t : State) : Prop := KeepsOthers ch s t ∧ { t with chans := s.chans, before := s.before } = s

/-- Nothing in the whole state but channel `ch` and the raised events has changed. -/
def OnlyChannelEvents (ch : Nat) (s t : State) : Prop := KeepsOthers ch s t ∧ { t with chans := s.chans, ev := s.ev } = s

/-- Nothing in the whole state but port `n` has changed. -/
def OnlyPort (n : Nat) (s t : State) : Prop := (∀ k, k ≠ n → port t k = port s k) ∧ { t with ports := s.ports } = s

/-- Nothing in the whole state but tile `g` has changed. -/
def OnlyTile (g : Nat) (s t : State) : Prop := (∀ k, k ≠ g → tile t k = tile s k) ∧ { t with tiles := s.tiles } = s

/-- Nothing in the whole state but request line `n` has changed. -/
def OnlyLine (n : Nat) (s t : State) : Prop := (∀ k, k ≠ n → line t k = line s k) ∧ { t with lines := s.lines } = s

/-- The configuration of a channel, and the registers of its context that a control instruction leaves alone (04 Table 4.1). -/
def settings (c : Channel) : Bool × Bool × Cls × BitVec 3 × BitVec 3 × Bool × BitVec 6 × Bool × Bool × Dom × PAddr :=
  (c.en, c.assigned, c.cls, c.prio, c.prioSh, c.priv, c.mid, c.pin, c.autoResume, c.homeDom, c.entry)

/-- The progress, detector and deadline registers of a channel (04 Tables 4.10 to 4.12). -/
def progress (c : Channel) : Bool × BitVec 21 × BitVec 21 × BitVec 32 × BitVec 16 × Bool × BitVec 64 :=
  (c.inMove, c.moveRd, c.moveWr, c.watchVal, c.watchCnt, c.dlArmed, c.dl)

/-- Channel `ch` has entered HALTED with these latches, its registers and CH_PC as they were (09 R224, R225). -/
def HaltedWith (ch : Nat) (f : FaultInfo) (a : Addr) (s t : State) : Prop :=
  (chan t ch).st = .halted ∧ (chan t ch).faultInfo = { f with valid := true } ∧ (chan t ch).faultAddr = a ∧
  (chan t ch).faultPc = (chan s ch).pc ∧ (chan t ch).pc = (chan s ch).pc ∧ (chan t ch).a = (chan s ch).a ∧
  (chan t ch).l = (chan s ch).l ∧ KeepsMemory s t

/-- The present ccyc has brought channel `ch` no progress, park or halt of its own that a cause could take back (04 R99). -/
def unmoved (s : State) (ch : Nat) : Bool := (get none s.before ch).isNone

/-- A channel but for the ccyc from which staged beats can be used. -/
def sansReady (c : Channel) : Channel :=
  { c with run := c.run.map (fun r => { r with staged := r.staged.map (fun st => { st with ready := 0 }) }) }

/-! ### The configuration port -/

/-- The commands that are accesses of the host at the configuration port (15 R374): they take effect in the order in which they are
offered, each once the port is free. -/
def isHost : Instr → Bool
  | .chStart _ | .chAbort _ | .evtSw _ | .pegCommit _ _ | .flogPop _ => true
  | .gateLogPop _ _ | .gateRuleWrite _ _ _ | .gateCtlWrite _ _ | .tileRegisterRead _ _ => true
  | .captureRead _ _ | .registerWrite _ _ _ | .pwrTargetLow _ | .pwrTargetRun => true
  | .loadProgramStore _ _ _ _ _ | .loadOptionArea _ _ _ _ _ _ | .verify _ _ _ _ _ | .verifyRead _ _ _ _ _ _ => true
  | .restructure _ _ _ _ _ _ _ | .commitAt _ _ _ | .park _ _ _ | .resume _ _ _ | .skip _ _ _ | .resetCh _ _ _ => true
  | .engineSoftReset _ _ _ | .gateUpdate _ _ _ | .gateUpdateStageOnly _ _ _ | .pegUpdate _ _ _ _ _ => true
  | .routeUpdate _ | .digest _ | .rollcall _ _ _ _ | .selftest _ _ _ _ | .readLog _ _ _ _ | .setTime _ _ => true
  | .cmdReservedOpcode _ _ => true
  | _ => false

/-- CORE runs, and the port serves an access of the host in the present ccyc (15 R374, R377). The access then runs on
`answer 0 false s`, the state in which it is being answered. -/
def hostTurn (s : State) : Bool := coreOn s && portReady s

/-! ### Gates -/

/-- What a checker samples in a TCLK in which nothing arrives. -/
def quietIn : GateIn := { up := true, req := none, beat := none, rqCrd := false, wdCrd := false }

/-! ### Mailbox -/

/-- A Gennal command issued now is accepted: CORE runs, the port serves its write, and BUSY is 0 (13 R333). -/
def accepts (s : State) : Bool := hostTurn s && !s.cmd.busy

/-- The mailbox shows the end of the command with token and opcode, a code (0: done) and results (13 R334, Table 13.4). -/
def Ended (tok op : Byte) (code : BitVec 8) (r : Results) (t : State) : Prop :=
  t.cmd.busy = false ∧ t.cmd.done = decide (code = 0) ∧ t.cmd.err = decide (code ≠ 0) ∧ t.cmd.code = code ∧
  t.cmd.token = tok ∧ t.cmd.opcode = op ∧ t.cmd.res = r

/-- The mailbox shows the command with token and opcode in progress. -/
def InProgress (tok op : Byte) (t : State) : Prop :=
  t.cmd.busy = true ∧ t.cmd.done = false ∧ t.cmd.err = false ∧ t.cmd.token = tok ∧ t.cmd.opcode = op

/-! ### The invariant -/

/-- Both RAMs and the list of channels are in canonical form and the fault log holds at most its 64 entries (09 R243). -/
def Inv (s : State) : Prop :=
  s.prog.wf = true ∧ s.cmd.buf.wf = true ∧ canon ({} : Channel) s.chans = true ∧ s.flog.entries.length ≤ 64

/-- The commands that write the program store: boot, LOAD with DEST 0, RESTRUCTURE (04 R109; 12 R319), the end of the rehash that a
RESTRUCTURE waits for (13 R346), a write of CMD_CTL and an opcode that may be theirs, a RESTRUCTURE spoiled by a low-power request (13
R335), the resets, removal of the supplies, and the tests that destroy state (17 R409). -/
def writesStore : Instr → Bool
  | .boot _ _ _ _ _ _ => true
  | .loadProgramStore _ _ _ _ _ => true
  | .restructure _ _ _ _ _ _ _ => true
  | .rehashDone => true
  | .registerWrite _ _ _ => true
  | .cmdReservedOpcode _ _ => true
  | .pwrTargetLow _ => true
  | .porstN => true
  | .sysrstN => true
  | .supplyRemoval => true
  | .wpIntest _ => true
  | .mbistRun => true
  | _ => false

end Sys2Proof.Safety
end

