-- ==== Sys2Proof/Certificates/Slice0/Obligations.lean ====
section
/-! DEFINITION. The statements for the provers. Each docstring names the commands it speaks of and the rules of the spec it comes
from; OBLIGATIONS.json lists them. A statement with hypotheses has its witness in Sys2Proof/Tests/Slice0.lean. -/

open Sys2Proof Sys2Proof.Machine Sys2Proof.Safety

/-! ### The queue, reset, the invariant -/

/-- A step runs the command at the front of the queue on the state with the queue's rest; on an empty queue one ccyc passes
(the model's choice, log entries 1 and 5). -/
def Obligations.StepRunsTheFrontCommand : Prop :=
  (∀ (c : Instr) (rest : List Instr) (s : State), s.pending = c :: rest → step s = exec c { s with pending := rest }) ∧
  ∀ s : State, s.pending = [] → step s = .next (tick s)

/-- What registers read right after reset, by the Reset columns of the tables named (03 Tables 3.11, 3.12; 06 Tables 6.5,
6.6; 09 Table 9.11; 13 Table 13.4; 14 Tables 14.7, 14.8; 04 Tables 4.3, 4.6), and ridge time 0 (11 R278). Channels and ports
are at their reset values; a field that the bit-stream loads is 0 until then, the model's choice (log entry 3). -/
def Obligations.ResetValuesOfTheRegisters : Prop :=
  State.reset.pending = [] ∧ State.reset.clk.ridge = 0 ∧ State.reset.pwr.st = .waking ∧
  readReg State.reset 0x40 = 0 ∧ readReg State.reset 0x41 = 0 ∧
  readReg State.reset 0x42 = 0x03FF00FF ∧ readReg State.reset 0x43 = 0x03EF000F ∧
  readReg State.reset 0x80 = 0 ∧ readReg State.reset 0x81 = 0x00000100 ∧ readReg State.reset 0x100 = 0 ∧
  readReg State.reset 0x140 = 0 ∧ readReg State.reset 0x141 = 0x80000005 ∧ readReg State.reset 0x801 = 0x80000000 ∧
  (∀ ch, chan State.reset ch = {}) ∧ ∀ n, port State.reset n = {}

/-- Every step keeps the invariant: both RAMs and the list of channels stay in canonical form, and the fault log within its 64
entries (09 R243). -/
def Obligations.EveryStepKeepsTheInvariant : Prop := ∀ s t : State, Inv s → step s = .next t → Inv t

/-- The invariant holds at reset. -/
def Obligations.InvariantHoldsAtReset : Prop := Inv State.reset

/-- The program store changes only by the commands that `writesStore` lists: no other command changes one byte of it, and no
passing of time does while none of those waits at the configuration port (04 R109; 12 R319; 14 Table 14.5; 17 R409). -/
def Obligations.OnlyListedCommandsWriteTheProgramStore : Prop :=
  (∀ (c : Instr) (s t : State), writesStore c = false → exec c s = .next t →
    ∀ a, readByte t.prog a = readByte s.prog a) ∧
  ∀ (s : State) (a : Nat), (∀ i ∈ s.cfg.offered, writesStore i = false) → readByte (tick s).prog a = readByte s.prog a

/-- Time (11 R277, R278; 01 R25), in the step on an empty queue (log entry 1), where no host access waits: each ccyc advances the
clock by one, with AO powered. At each TICK edge, which begins each even ccyc, ridge time advances by one, with a slew correction that
was made by two or by none, takes the value of a SYNC step, or that of a SET_TIME once it is due, which replaces the others (11 R280,
R291; 13 R340); between edges it stays. A correction is then off the remainder of its slew, at the edge that makes it (log entry 24). The
interrupt outputs move through two stages at TICK edges, the first sampling the levels of the causes as the ccyc before the edge
leaves them (`ccycEnd`; 03 R82; 01 R411). -/
def Obligations.TimePassesByTicks : Prop :=
  ∀ s : State, s.pwr.st ≠ .off → s.cfg.offered = [] →
    (tick s).clk.now = s.clk.now + 1 ∧
    (s.clk.now % 2 = 0 → (tick s).clk.ridge = s.clk.ridge ∧ (tick s).irq.out = s.irq.out ∧ (tick s).irq.d1 = s.irq.d1) ∧
    (s.clk.now % 2 = 1 → (∀ d v, s.clk.setTime = some (d, v) → s.clk.now + 1 < d) →
      (s.clk.stepTo = none → (tick s).clk.ridge = s.clk.ridge + 1 + BitVec.ofInt 64 s.clk.adj ∧
        (tick s).clk.slewRem = s.clk.slewRem - s.clk.adj ∧ (tick s).clk.adj = 0) ∧
      (∀ v, s.clk.stepTo = some v → (tick s).clk.ridge = v ∧ (tick s).clk.stepTo = none ∧ (tick s).clk.adj = 0)) ∧
    (s.clk.now % 2 = 1 → ∀ d v, s.clk.setTime = some (d, v) → d ≤ s.clk.now + 1 →
      (tick s).clk.ridge = v ∧ (tick s).clk.setTime = none ∧ (tick s).clk.stepTo = none ∧ (tick s).clk.adj = 0) ∧
    (s.clk.now % 2 = 1 → (tick s).irq.out = s.irq.d1 ∧ (tick s).irq.d1 = irqLevels (ccycEnd s).irq) ∧
    (ccycEnd s).irq.mask = s.irq.mask ∧ (∀ k, s.irq.cause.getLsbD k = true → (ccycEnd s).irq.cause.getLsbD k = true)

/-! ### Yabex words (05) -/

/-- Every instruction that the encoding tables admit decodes from its word, with every operand (05 R118, Tables 5.3 to
5.12). -/
def Obligations.EncodedInstructionsDecode : Prop := ∀ i : Yabex, i.wf = true → decodeYabex (encodeYabex i) = .ok i

/-- A word that decodes is the one word of its instruction, and breaks no reserved bit or value (05 R118). -/
def Obligations.DecodedWordsAreTheirEncoding : Prop :=
  ∀ (w : IWord) (i : Yabex), decodeYabex w = .ok i → i.wf = true ∧ encodeYabex i = w

/-- Words written out from the encoding tables, the manual's own among them, decode to what they stand for. -/
def Obligations.WordsOfTheManualDecode : Prop :=
  decodeYabex 0x3000000060000040 = .ok (.seta 0 0x60000040) ∧
  decodeYabex 0x9300000258384025 = .ok (.wait 0 true true false 600 900 37) ∧
  decodeYabex 0x1148800000000000 = .ok (.move 0 1 2 false true 0 true 0) ∧
  decodeYabex 0x2900000000000C80 = .ok (.puti 2 false true 0xC80) ∧
  decodeYabex 0xD000000000032385 = .ok (.watch 50 901) ∧
  decodeYabex 0x60000000FFFFFFFE = .ok (.loop 0 0xFFFFFFFE) ∧
  decodeYabex 0xE000000000000000 = .ok .stop ∧
  decodeYabex 0xF000000000000000 = .illegal 1 ∧
  decodeYabex 0xE000000000000001 = .illegal 2

/-! ### Registers and branches (05) -/

/-- SETA, ADDA (modulo 2^48) and SETL change the register they name, and CH_PC by 8 (05 R140, R121; 04 R104). Nothing else of
the channel's settings, of its progress or of memory changes, and nothing outside the channel unless its source ends there,
which halts it (`PastTheEndHalts`). -/
def Obligations.SetInstructionsWriteOneRegister : Prop :=
  ∀ (s : State) (ch : Chan),
    (∀ r v, atInstr s ch.toNat (.seta r v) = true →
      ∃ t, exec (.seta ch) s = .next t ∧
        (chan t ch.toNat).a = setReg4 (chan s ch.toNat).a r.toNat v ∧ (chan t ch.toNat).l = (chan s ch.toNat).l ∧
        (chan t ch.toNat).pc = (chan s ch.toNat).pc.plus 8 ∧ settings (chan t ch.toNat) = settings (chan s ch.toNat) ∧
        progress (chan t ch.toNat) = progress (chan s ch.toNat) ∧ KeepsMemory s t ∧
        (goesOn s ch.toNat 8 = true → OnlyChannel ch.toNat s t)) ∧
    (∀ r v, atInstr s ch.toNat (.adda r v) = true →
      ∃ t, exec (.adda ch) s = .next t ∧
        (chan t ch.toNat).a = setReg4 (chan s ch.toNat).a r.toNat (reg4 (chan s ch.toNat).a r.toNat + v) ∧
        (chan t ch.toNat).l = (chan s ch.toNat).l ∧
        (chan t ch.toNat).pc = (chan s ch.toNat).pc.plus 8 ∧ settings (chan t ch.toNat) = settings (chan s ch.toNat) ∧
        progress (chan t ch.toNat) = progress (chan s ch.toNat) ∧ KeepsMemory s t ∧
        (goesOn s ch.toNat 8 = true → OnlyChannel ch.toNat s t)) ∧
    (∀ r v, atInstr s ch.toNat (.setl r v) = true →
      ∃ t, exec (.setl ch) s = .next t ∧
        (chan t ch.toNat).l = setReg4 (chan s ch.toNat).l r.toNat v ∧ (chan t ch.toNat).a = (chan s ch.toNat).a ∧
        (chan t ch.toNat).pc = (chan s ch.toNat).pc.plus 8 ∧ settings (chan t ch.toNat) = settings (chan s ch.toNat) ∧
        progress (chan t ch.toNat) = progress (chan s ch.toNat) ∧ KeepsMemory s t ∧
        (goesOn s ch.toNat 8 = true → OnlyChannel ch.toNat s t))

/-- LOOP with its target in the source counts its L register down, not below 0, and branches while more than one turn is
left; JUMP branches; LINK goes to its target in the source it names, where the channel may run (05 R142 to R144; 04 R107,
R110). A branch changes nothing but the channel. -/
def Obligations.BranchesGoToTheirTargets : Prop :=
  ∀ (s : State) (ch : Chan),
    (∀ r off, atInstr s ch.toNat (.loop r off) = true →
      targetOk (chan s ch.toNat).pc.sys (branchTarget (chan s ch.toNat).pc off) = true →
      ∃ t, exec (.loop ch) s = .next t ∧ (chan t ch.toNat).a = (chan s ch.toNat).a ∧
        (chan t ch.toNat).l = setReg4 (chan s ch.toNat).l r.toNat
          (if reg4 (chan s ch.toNat).l r.toNat = 0 then 0 else reg4 (chan s ch.toNat).l r.toNat - 1) ∧
        (chan t ch.toNat).pc = (if (reg4 (chan s ch.toNat).l r.toNat).toNat ≤ 1 then (chan s ch.toNat).pc.plus 8
          else { (chan s ch.toNat).pc with addr := BitVec.ofInt 48 (branchTarget (chan s ch.toNat).pc off) }) ∧
        settings (chan t ch.toNat) = settings (chan s ch.toNat) ∧ KeepsMemory s t ∧
        (1 < (reg4 (chan s ch.toNat).l r.toNat).toNat ∨ goesOn s ch.toNat 8 = true → OnlyChannel ch.toNat s t)) ∧
    (∀ off, atInstr s ch.toNat (.jump off) = true →
      targetOk (chan s ch.toNat).pc.sys (branchTarget (chan s ch.toNat).pc off) = true →
      ∃ t, exec (.jump ch) s = .next t ∧ (chan t ch.toNat).a = (chan s ch.toNat).a ∧
        (chan t ch.toNat).l = (chan s ch.toNat).l ∧
        (chan t ch.toNat).pc =
          { (chan s ch.toNat).pc with addr := BitVec.ofInt 48 (branchTarget (chan s ch.toNat).pc off) } ∧
        settings (chan t ch.toNat) = settings (chan s ch.toNat) ∧ OnlyChannel ch.toNat s t) ∧
    (∀ sys target, atInstr s ch.toNat (.link sys target) = true →
      (sys = false → target.toNat ≤ 0x3FFF8) → (sys = true → sysAllowed s (chan s ch.toNat) = true) →
      ∃ t, exec (.link ch) s = .next t ∧ (chan t ch.toNat).a = (chan s ch.toNat).a ∧
        (chan t ch.toNat).l = (chan s ch.toNat).l ∧ (chan t ch.toNat).pc = { sys := sys, addr := target } ∧
        settings (chan t ch.toNat) = settings (chan s ch.toNat) ∧ OnlyChannel ch.toNat s t)

/-! ### WAIT, events, STOP (05) -/

/-- WAIT, at its evaluation. Where its condition is met it completes: a request line takes one from its counter (at count 15 an edge
of the same ccyc takes the place left), an instant equal to ridge time or past without MISS completes, an event or global event
delivered in this ccyc completes; CH_PC moves by 8, CH_DL and DL_ARMED are cleared (05 R146, R147, R148; 03 R70, R73, R78). Where it is
not met the channel waits at its address, and shows why; a deadline is armed DLTICKS after ridge time; an instant ahead waits for it
(04 Tables 4.4, 4.5). Nothing but the channel and the line changes, where the source goes on after the WAIT. -/
def Obligations.WaitCompletesOrWaits : Prop :=
  (∀ (s : State) (ch : Chan) (dlen st miss : Bool) (dl : BitVec 24) (stale : Event) (arg : BitVec 12),
    (∀ k : BitVec 2, atInstr s ch.toNat (.wait k dlen st miss dl stale arg) = true →
      (k = 0 → lineOwner s arg.toNat = some ch.toNat ∧ (line s arg.toNat).cnt ≠ 0) →
      (k = 1 → arg.toNat ∈ s.ev.delivered) →
      (k = 2 → instantOffset s.clk.ridge (reg4 (chan s ch.toNat).a arg.toNat) = 0 ∨
        (instantOffset s.clk.ridge (reg4 (chan s ch.toNat).a arg.toNat) < 0 ∧ miss = false)) →
      (k = 3 → s.ev.gdelivered.getLsbD arg.toNat = true) →
      ∃ t, exec (.wait ch) s = .next t ∧ (chan t ch.toNat).pc = (chan s ch.toNat).pc.plus 8 ∧
        (chan t ch.toNat).dlArmed = false ∧ (chan t ch.toNat).dl = 0 ∧ (chan t ch.toNat).a = (chan s ch.toNat).a ∧
        (chan t ch.toNat).l = (chan s ch.toNat).l ∧ settings (chan t ch.toNat) = settings (chan s ch.toNat) ∧
        KeepsMemory s t ∧
        (k = 0 → (line t arg.toNat).cnt =
            (if (line s arg.toNat).use = .over ∨ (line s arg.toNat).use = .lost then (line s arg.toNat).cnt
              else (line s arg.toNat).cnt - 1) ∧
          (line t arg.toNat).ovf = (line s arg.toNat).ovf ∧ (∀ n, n ≠ arg.toNat → line t n = line s n) ∧
          (goesOn s ch.toNat 8 = true → KeepsOthers ch.toNat s t ∧ { t with chans := s.chans, lines := s.lines } = s)) ∧
        (k ≠ 0 → goesOn s ch.toNat 8 = true → OnlyChannel ch.toNat s t))) ∧
  ∀ (s : State) (ch : Chan) (k : BitVec 2) (dlen st miss : Bool) (dl : BitVec 24) (stale : Event) (arg : BitVec 12),
    atInstr s ch.toNat (.wait k dlen st miss dl stale arg) = true → (chan s ch.toNat).newWait = true →
    s.clk.ridge.toNat + dl.toNat < 2 ^ 64 →
    (k = 0 → lineOwner s arg.toNat = some ch.toNat ∧ (line s arg.toNat).cnt = 0) →
    (k = 1 → arg.toNat ∉ s.ev.delivered) →
    (k = 2 → 0 < instantOffset s.clk.ridge (reg4 (chan s ch.toNat).a arg.toNat)) →
    (k = 3 → s.ev.gdelivered.getLsbD arg.toNat = false) →
    ∃ t, exec (.wait ch) s = .next t ∧ (chan t ch.toNat).st = .waiting ∧ (chan t ch.toNat).waitOn = waitReason k ∧
      (chan t ch.toNat).pc = (chan s ch.toNat).pc ∧
      (k ≠ 2 → (chan t ch.toNat).waitArg = arg ∧ (chan t ch.toNat).dlArmed = dlen ∧
        (chan t ch.toNat).dl = (if dlen then s.clk.ridge + dl.setWidth 64 else 0)) ∧
      (k = 2 → (chan t ch.toNat).dl = s.clk.ridge +
        BitVec.ofInt 64 (instantOffset s.clk.ridge (reg4 (chan s ch.toNat).a arg.toNat))) ∧
      (chan t ch.toNat).a = (chan s ch.toNat).a ∧ (chan t ch.toNat).l = (chan s ch.toNat).l ∧
      settings (chan t ch.toNat) = settings (chan s ch.toNat) ∧ OnlyChannel ch.toNat s t

/-- SIGNAL raises its event in its ccyc and never waits; SIGNAL.F and FENCE go on at once with no write tag outstanding,
SIGNAL.F raising its event, and otherwise wait at their address, raising nothing (05 R151, R152; 08 R211). WATCH raises its event and
clears WATCH_CNT once the count has reached N, and otherwise does nothing but move on (05 R155). -/
def Obligations.EventsAndFences : Prop :=
  (∀ (s : State) (ch : Chan),
    (∀ e, atInstr s ch.toNat (.signal e) = true →
      ∃ t, exec (.signal ch) s = .next t ∧ t.ev.raised = insertNat e.toNat s.ev.raised ∧
        (chan t ch.toNat).pc = (chan s ch.toNat).pc.plus 8 ∧ (chan t ch.toNat).a = (chan s ch.toNat).a ∧
        (chan t ch.toNat).l = (chan s ch.toNat).l ∧ KeepsMemory s t ∧
        (goesOn s ch.toNat 8 = true → OnlyChannelEvents ch.toNat s t)) ∧
    (∀ e, atInstr s ch.toNat (.signalF e) = true → unstopped s ch.toNat = true → wtagCount s ch.toNat = 0 →
      ∃ t, exec (.signalF ch) s = .next t ∧ t.ev.raised = insertNat e.toNat s.ev.raised ∧
        (chan t ch.toNat).pc = (chan s ch.toNat).pc.plus 8 ∧ KeepsMemory s t ∧
        (goesOn s ch.toNat 8 = true → OnlyChannelEvents ch.toNat s t)) ∧
    (∀ e, atInstr s ch.toNat (.signalF e) = true → unstopped s ch.toNat = true → wtagCount s ch.toNat ≠ 0 →
      ∃ t, exec (.signalF ch) s = .next t ∧ (chan t ch.toNat).st = .waiting ∧ (chan t ch.toNat).waitOn = .fenced ∧
        (chan t ch.toNat).pc = (chan s ch.toNat).pc ∧ OnlyChannel ch.toNat s t) ∧
    (atInstr s ch.toNat .fence = true → unstopped s ch.toNat = true → wtagCount s ch.toNat = 0 →
      ∃ t, exec (.fence ch) s = .next t ∧ (chan t ch.toNat).pc = (chan s ch.toNat).pc.plus 8 ∧ KeepsMemory s t ∧
        (goesOn s ch.toNat 8 = true → OnlyChannel ch.toNat s t)) ∧
    (atInstr s ch.toNat .fence = true → unstopped s ch.toNat = true → wtagCount s ch.toNat ≠ 0 →
      ∃ t, exec (.fence ch) s = .next t ∧ (chan t ch.toNat).st = .waiting ∧ (chan t ch.toNat).waitOn = .fenced ∧
        (chan t ch.toNat).pc = (chan s ch.toNat).pc ∧ OnlyChannel ch.toNat s t)) ∧
  ∀ (s : State) (ch : Chan) (n : BitVec 16) (e : Event), atInstr s ch.toNat (.watch n e) = true →
    ∃ t, exec (.watch ch) s = .next t ∧ (chan t ch.toNat).pc = (chan s ch.toNat).pc.plus 8 ∧
      (n.toNat ≤ (chan s ch.toNat).watchCnt.toNat →
        (chan t ch.toNat).watchCnt = 0 ∧ t.ev.raised = insertNat e.toNat s.ev.raised) ∧
      ((chan s ch.toNat).watchCnt.toNat < n.toNat →
        (chan t ch.toNat).watchCnt = (chan s ch.toNat).watchCnt ∧ t.ev.raised = s.ev.raised) ∧
      (chan t ch.toNat).watchVal = (chan s ch.toNat).watchVal ∧ (chan t ch.toNat).a = (chan s ch.toNat).a ∧
      (chan t ch.toNat).l = (chan s ch.toNat).l ∧ KeepsMemory s t ∧
      (goesOn s ch.toNat 8 = true → OnlyChannelEvents ch.toNat s t)

/-- STOP: IDLE with EN 0 and CH_PC at the STOP; the A and L registers keep their values, and no other channel changes (04 Table 4.9;
05 R121, R156). After a host write of 1 to EN in the same ccyc the channel starts again in the next; a park asked for and a fault detected
in the same ccyc come before the STOP, which then has no effect (04 R99; beside 09 R226 the model's reading, log entry 5). -/
def Obligations.StopEntersIdle : Prop :=
  ∀ (s : State) (ch : Chan), atInstr s ch.toNat .stop = true →
    (unstopped s ch.toNat = true →
      ∃ t, exec (.stop ch) s = .next t ∧ (chan t ch.toNat).st = .idle ∧ (chan t ch.toNat).en = false ∧
        (chan t ch.toNat).pc = (chan s ch.toNat).pc ∧ (chan t ch.toNat).a = (chan s ch.toNat).a ∧
        (chan t ch.toNat).l = (chan s ch.toNat).l ∧ progress (chan t ch.toNat) = progress (chan s ch.toNat) ∧
        (chan t ch.toNat).startNext = ((chan s ch.toNat).enAt == some s.clk.now) ∧
        KeepsOthers ch.toNat s t ∧ KeepsMemory s t) ∧
    (unstopped s ch.toNat = false → exec (.stop ch) s = .next s)

/-- Where an instruction halts its channel. A channel that moves past the last address of its source halts with FETCH, detail 0x2 in
the program store and 0x3 in system memory, at the address that follows, modulo 2^48 (04 R106; 09 Table 9.4); shown for SETL, whose
effect stands. A LOOP or JUMP to a target outside its source, and a LINK into the store beyond its end or into system memory where the
channel may not run, halt it with ILLEGAL, detail 0x6 or 0x7 (05 R119, R142, Table 5.2; 04 R107, R110). A WAIT on a line that the
channel does not own halts it with ILLEGAL, detail 0x8, and an instant already past under MISS with DEADLINE, detail 0x1 (05 R146,
R147). A word that does not decode halts it with ILLEGAL and its detail code, whichever opcode it has, and changes no register (05
R117 to R119); so RESERVED_OPCODE_INSTRUCTION, with detail 0x1. A MOVE or PUTI is executed once its channel has a mover. -/
def Obligations.InstructionsThatHalt : Prop :=
  (∀ (s : State) (ch : Chan) (r : BitVec 2) (v : BitVec 32),
    atInstr s ch.toNat (.setl r v) = true → unstopped s ch.toNat = true → goesOn s ch.toNat 8 = false →
    ∃ t, exec (.setl ch) s = .next t ∧ (chan t ch.toNat).st = .halted ∧
      (chan t ch.toNat).faultInfo.valid = true ∧ (chan t ch.toNat).faultInfo.cause = .fetch ∧
      (chan t ch.toNat).faultInfo.dir = dirFetch ∧
      (chan t ch.toNat).faultInfo.detail = (if (chan s ch.toNat).pc.sys then 3 else 2) ∧
      (chan t ch.toNat).faultAddr = (chan s ch.toNat).pc.addr + 8 ∧
      (chan t ch.toNat).faultPc = (chan s ch.toNat).pc.plus 8 ∧
      (chan t ch.toNat).l = setReg4 (chan s ch.toNat).l r.toNat v) ∧
  (∀ (s : State) (ch : Chan),
    (∀ r off, atInstr s ch.toNat (.loop r off) = true →
      targetOk (chan s ch.toNat).pc.sys (branchTarget (chan s ch.toNat).pc off) = false →
      ∃ t, exec (.loop ch) s = .next t ∧ HaltedWith ch.toNat { cause := .illegal, detail := 6 }
        (BitVec.ofInt 48 (branchTarget (chan s ch.toNat).pc off)) s t) ∧
    (∀ off, atInstr s ch.toNat (.jump off) = true →
      targetOk (chan s ch.toNat).pc.sys (branchTarget (chan s ch.toNat).pc off) = false →
      ∃ t, exec (.jump ch) s = .next t ∧ HaltedWith ch.toNat { cause := .illegal, detail := 6 }
        (BitVec.ofInt 48 (branchTarget (chan s ch.toNat).pc off)) s t) ∧
    (∀ target, atInstr s ch.toNat (.link false target) = true → 0x3FFF8 < target.toNat →
      ∃ t, exec (.link ch) s = .next t ∧ HaltedWith ch.toNat { cause := .illegal, detail := 6 } target s t) ∧
    (∀ target, atInstr s ch.toNat (.link true target) = true → sysAllowed s (chan s ch.toNat) = false →
      ∃ t, exec (.link ch) s = .next t ∧ HaltedWith ch.toNat { cause := .illegal, detail := 7 } target s t)) ∧
  (∀ (s : State) (ch : Chan) (dlen st miss : Bool) (dl : BitVec 24) (stale : Event) (arg : BitVec 12),
    (atInstr s ch.toNat (.wait 0 dlen st miss dl stale arg) = true → lineOwner s arg.toNat ≠ some ch.toNat →
      ∃ t, exec (.wait ch) s = .next t ∧ HaltedWith ch.toNat { cause := .illegal, detail := 8 } 0 s t) ∧
    (atInstr s ch.toNat (.wait 2 dlen st true dl stale arg) = true →
      instantOffset s.clk.ridge (reg4 (chan s ch.toNat).a arg.toNat) < 0 →
      ∃ t, exec (.wait ch) s = .next t ∧
        HaltedWith ch.toNat { cause := .deadline, detail := 1 } (reg4 (chan s ch.toNat).a arg.toNat) s t)) ∧
  (∀ (s : State) (ch : Chan) (w : IWord) (d : BitVec 4), atWord s ch.toNat w = true → decodeYabex w = .illegal d →
    ((yabexOpcode w = 1 ∨ yabexOpcode w = 2) → mayMove s ch.toNat = true) →
    ∃ t, exec (rowOf (yabexOpcode w) ch) s = .next t ∧
      HaltedWith ch.toNat { cause := .illegal, detail := d } 0 s t) ∧
  ∀ (s : State) (ch : Chan) (w : IWord), atWord s ch.toNat w = true → yabexOpcode w = 0 ∨ yabexOpcode w = 15 →
    ∃ t, exec (.reservedOpcodeInstruction ch) s = .next t ∧ HaltedWith ch.toNat { cause := .illegal, detail := 1 } 0 s t

/-- A MOVE that names one A register for both sides raises ILLEGAL with detail 0x4 (05 R125), where no lower detail code
applies to its word (05 R118). -/
def Obligations.MoveOfOneRegisterIsIllegal : Prop :=
  ∀ (s : State) (ch : Chan) (w : IWord), atWord s ch.toNat w = true → mayMove s ch.toNat = true → yabexOpcode w = 1 →
    (fld w 58 2 : BitVec 2) = fld w 56 2 → esizeOk (fld w 53 3) = true → (fld w 48 3 : BitVec 3).toNat ≤ 4 →
    (fld w 20 27 : BitVec 27) = 0 → swapUnit (fld w 48 3) ≤ esizeBytes (fld w 53 3) →
    ∃ t, exec (.move ch) s = .next t ∧ HaltedWith ch.toNat { cause := .illegal, detail := 4 } 0 s t

/-! ### MOVE and PUTI (05, 06) -/

/-- A MOVE or PUTI whose checks pass begins: IN_MOVE 1, no element moved, CH_PC and the A registers as they are; nothing but
the channel changes. A PUTI with SZ 1 takes the word after it as its value; one executed again keeps the slot it holds (05 R120, R126,
R136, R137; 06 R169). -/
def Obligations.MoveAndPutiBegin : Prop :=
  ∀ (s : State) (ch : Chan), mayMove s ch.toNat = true → unstopped s ch.toNat = true →
    (chan s ch.toNat).inMove = false →
    (∀ a b es si di sw wt n g, atInstr s ch.toNat (.move a b es si di sw wt n) = true →
      checkMove s (chan s ch.toNat).a a b es si di sw wt n = .ok g →
      ∃ t, exec (.move ch) s = .next t ∧ (chan t ch.toNat).inMove = true ∧
        (chan t ch.toNat).run = some (newRun g 0 0 []) ∧ (chan t ch.toNat).moveRd = 0 ∧ (chan t ch.toNat).moveWr = 0 ∧
        (chan t ch.toNat).pc = (chan s ch.toNat).pc ∧ (chan t ch.toNat).a = (chan s ch.toNat).a ∧
        (chan t ch.toNat).l = (chan s ch.toNat).l ∧ OnlyChannel ch.toNat s t) ∧
    (∀ b sz inc imm g v, atInstr s ch.toNat (.puti b sz inc imm) = true →
      checkPuti s (chan s ch.toNat).a b sz inc (imm.setWidth 64) = .ok g →
      (sz = false → v = imm.setWidth 64) → (sz = true → putiData s (chan s ch.toNat) = .ok v) →
      ∃ t, exec (.puti ch) s = .next t ∧ (chan t ch.toNat).inMove = true ∧
        (chan t ch.toNat).run = some (putiRun { g with imm := some v } (chan s ch.toNat).run) ∧
        ((chan s ch.toNat).run = none → (chan t ch.toNat).run = some (newRun { g with imm := some v } 0 0 [])) ∧
        (chan t ch.toNat).pc = (chan s ch.toNat).pc ∧ (chan t ch.toNat).a = (chan s ch.toNat).a ∧
        (chan t ch.toNat).l = (chan s ch.toNat).l ∧ OnlyChannel ch.toNat s t)

/-- The checks of a MOVE (05 R131): it passes exactly when each side begins in a window, stays in it, and is aligned to the
element; the window checks come first, source before destination (ILLEGAL, detail 0x5, at the address of the side), then alignment, source
before destination (ALIGN, at the address of the side, with its direction and port). A MOVE or a PUTI whose checks fail halts its channel
with the cause, the detail, the direction, the port and the address of the check, and changes no register (05 R131, R137). A MOVE executed
again with IN_MOVE 1, its checks passed, goes on from its progress fields: from CH_MOVE_WR where nothing of it is kept in the mover, and
else with what is (05 R133). -/
def Obligations.MoveChecksWindowsThenAlignment : Prop :=
  (∀ (s : State) (regs : Regs4 48) (a b : BitVec 2) (es : BitVec 3) (si di : Bool) (sw : BitVec 3) (wt : Bool) (n : BitVec 20),
    (∀ g, checkMove s regs a b es si di sw wt n = .ok g →
      ∃ ws wd, windowAt s (reg4 regs a.toNat).toNat = some ws ∧ windowAt s (reg4 regs b.toNat).toNat = some wd ∧
        (reg4 regs a.toNat).toNat + (if si then (n.toNat + 1) * esizeBytes es else esizeBytes es) ≤ ws.limit.toNat + 1 ∧
        (reg4 regs b.toNat).toNat + (if di then (n.toNat + 1) * esizeBytes es else esizeBytes es) ≤ wd.limit.toNat + 1 ∧
        (reg4 regs a.toNat).toNat % esizeBytes es = 0 ∧ (reg4 regs b.toNat).toNat % esizeBytes es = 0 ∧
        g.s = (reg4 regs a.toNat).toNat ∧ g.d = (reg4 regs b.toNat).toNat ∧ g.e = esizeBytes es ∧ g.n = n.toNat + 1 ∧
        g.sport = ws.port.toNat ∧ g.dport = wd.port.toNat) ∧
    (∀ ws wd, windowAt s (reg4 regs a.toNat).toNat = some ws → windowAt s (reg4 regs b.toNat).toNat = some wd →
      (reg4 regs a.toNat).toNat + (if si then (n.toNat + 1) * esizeBytes es else esizeBytes es) ≤ ws.limit.toNat + 1 →
      (reg4 regs b.toNat).toNat + (if di then (n.toNat + 1) * esizeBytes es else esizeBytes es) ≤ wd.limit.toNat + 1 →
      (reg4 regs a.toNat).toNat % esizeBytes es = 0 → (reg4 regs b.toNat).toNat % esizeBytes es = 0 →
      ∃ g, checkMove s regs a b es si di sw wt n = .ok g) ∧
    (windowAt s (reg4 regs a.toNat).toNat = none →
      checkMove s regs a b es si di sw wt n = .error (illegal 5 (reg4 regs a.toNat))) ∧
    (∀ ws wd, windowAt s (reg4 regs a.toNat).toNat = some ws → windowAt s (reg4 regs b.toNat).toNat = some wd →
      (reg4 regs a.toNat).toNat + (if si then (n.toNat + 1) * esizeBytes es else esizeBytes es) ≤ ws.limit.toNat + 1 →
      (reg4 regs b.toNat).toNat + (if di then (n.toNat + 1) * esizeBytes es else esizeBytes es) ≤ wd.limit.toNat + 1 →
      (reg4 regs a.toNat).toNat % esizeBytes es ≠ 0 →
      checkMove s regs a b es si di sw wt n =
        .error { cause := .align, addr := reg4 regs a.toNat, dir := dirRead, port := ws.port }) ∧
    (∀ ws, windowAt s (reg4 regs a.toNat).toNat = some ws →
      ws.limit.toNat + 1 < (reg4 regs a.toNat).toNat + (if si then (n.toNat + 1) * esizeBytes es else esizeBytes es) →
      checkMove s regs a b es si di sw wt n = .error (illegal 5 (reg4 regs a.toNat))) ∧
    (∀ ws, windowAt s (reg4 regs a.toNat).toNat = some ws →
      (reg4 regs a.toNat).toNat + (if si then (n.toNat + 1) * esizeBytes es else esizeBytes es) ≤ ws.limit.toNat + 1 →
      (windowAt s (reg4 regs b.toNat).toNat = none ∨ ∃ wd, windowAt s (reg4 regs b.toNat).toNat = some wd ∧
        wd.limit.toNat + 1 < (reg4 regs b.toNat).toNat + (if di then (n.toNat + 1) * esizeBytes es else esizeBytes es)) →
      checkMove s regs a b es si di sw wt n = .error (illegal 5 (reg4 regs b.toNat))) ∧
    (∀ ws wd, windowAt s (reg4 regs a.toNat).toNat = some ws → windowAt s (reg4 regs b.toNat).toNat = some wd →
      (reg4 regs a.toNat).toNat + (if si then (n.toNat + 1) * esizeBytes es else esizeBytes es) ≤ ws.limit.toNat + 1 →
      (reg4 regs b.toNat).toNat + (if di then (n.toNat + 1) * esizeBytes es else esizeBytes es) ≤ wd.limit.toNat + 1 →
      (reg4 regs a.toNat).toNat % esizeBytes es = 0 → (reg4 regs b.toNat).toNat % esizeBytes es ≠ 0 →
      checkMove s regs a b es si di sw wt n =
        .error { cause := .align, addr := reg4 regs b.toNat, dir := dirWrite, port := wd.port })) ∧
  ∀ (s : State) (ch : Chan), mayMove s ch.toNat = true →
    ((chan s ch.toNat).inMove = false ∨ (chan s ch.toNat).run = none ∨ (chan s ch.toNat).recheck = true →
      (∀ a b es si di sw wt n f, atInstr s ch.toNat (.move a b es si di sw wt n) = true →
        checkMove s (chan s ch.toNat).a a b es si di sw wt n = .error f →
        ∃ t, exec (.move ch) s = .next t ∧
          HaltedWith ch.toNat { cause := f.cause, detail := f.detail, dir := f.dir, port := f.port } f.addr s t) ∧
      (∀ b sz inc imm f, atInstr s ch.toNat (.puti b sz inc imm) = true →
        checkPuti s (chan s ch.toNat).a b sz inc (imm.setWidth 64) = .error f →
        ∃ t, exec (.puti ch) s = .next t ∧
          HaltedWith ch.toNat { cause := f.cause, detail := f.detail, dir := f.dir, port := f.port } f.addr s t)) ∧
    (unstopped s ch.toNat = true → (chan s ch.toNat).inMove = true →
      ∀ a b es si di sw wt n g, atInstr s ch.toNat (.move a b es si di sw wt n) = true →
        checkMove s (chan s ch.toNat).a a b es si di sw wt n = .ok g →
        ((chan s ch.toNat).run = none →
          ∃ t, exec (.move ch) s = .next t ∧ (chan t ch.toNat).inMove = true ∧
            (chan t ch.toNat).run = some (newRun g (chan s ch.toNat).moveWr.toNat (chan s ch.toNat).moveWr.toNat []) ∧
            (chan t ch.toNat).moveWr = (chan s ch.toNat).moveWr ∧ (chan t ch.toNat).moveRd = (chan s ch.toNat).moveWr ∧
            (chan t ch.toNat).a = (chan s ch.toNat).a ∧ (chan t ch.toNat).pc = (chan s ch.toNat).pc ∧ OnlyChannel ch.toNat s t) ∧
        (∀ r, (chan s ch.toNat).run = some r → (chan s ch.toNat).recheck = true → r.geo = g →
          ∃ t, exec (.move ch) s = .next t ∧ chan t ch.toNat = { chan s ch.toNat with recheck := false } ∧
            OnlyChannel ch.toNat s t) ∧
        ∀ r, (chan s ch.toNat).run = some r → (chan s ch.toNat).recheck = false → exec (.move ch) s = .next s)

/-- MOVE_RETIRE: when a MOVE retires, the engine adds (CNTM1 + 1) × E to the source A register if SINC is 1 and to the destination A
register if DINC is 1, and clears both progress fields and IN_MOVE; a fixed side keeps its register; a PUTI with INC 1
advances its one register (05 R127, R128, R135). CH_PC moves past the instruction. With WT 1 the watched word of the last element goes
through the repeat-value detector: WATCH_CNT counts, up to its end, a word equal to WATCH_VAL, and another word is held as WATCH_VAL with
the count at 0 (05 R134). The watched word (`tap`) is taken when the beat that holds the last element leaves (`sendBeat`, unpoisoned):
its first 4 bytes as written, the first least significant, with zeros above an element of fewer bytes; no other beat changes it. -/
def Obligations.RetirementAdvancesTheAddresses : Prop :=
  (∀ (s : State) (n ch k : Nat) (sl : Slot) (r : Run) (src : List Staged) (time : Nat) (fwd : Bool),
    (chan s ch).run = some r → sl.badSrc = false → beatState r (sl.unit + k) = .whole src time fwd → inTime s sl time fwd = true →
    (fwd = false → ∀ st ∈ src, decodeBeat st.data st.chk ≠ .uncorrectable) →
    (chan (sendBeat n ch k sl s) ch).tap =
      if r.geo.wt = true ∧ sl.unit + k = unitOf r.geo (r.geo.n - 1) then some (watchedWord r) else (chan s ch).tap) ∧
  (∀ (r : Run) (j : Nat), j < 4 → (watchedWord r).toNat / 256 ^ j % 256 =
    if j < min 4 r.geo.e then writtenByte r dataOf (r.geo.n - 1) j else 0) ∧
  ∀ (s : State) (ch : Chan) (r : Run), canRetire s ch.toNat = true → (chan s ch.toNat).run = some r →
    ∃ t, exec (.moveRetire ch) s = .next t ∧ (chan t ch.toNat).inMove = false ∧
      (chan t ch.toNat).moveRd = 0 ∧ (chan t ch.toNat).moveWr = 0 ∧ (chan t ch.toNat).l = (chan s ch.toNat).l ∧
      (chan t ch.toNat).pc = (chan s ch.toNat).pc.plus (if r.geo.imm.isSome ∧ r.geo.e = 8 then 16 else 8) ∧
      (∀ i : BitVec 2, r.geo.imm = none → r.geo.sreg ≠ r.geo.dreg →
        reg4 (chan t ch.toNat).a i.toNat =
          if (i = r.geo.sreg ∧ r.geo.sinc = true) ∨ (i = r.geo.dreg ∧ r.geo.dinc = true)
          then reg4 (chan s ch.toNat).a i.toNat + BitVec.ofNat 48 (r.geo.n * r.geo.e)
          else reg4 (chan s ch.toNat).a i.toNat) ∧
      (∀ i : BitVec 2, r.geo.imm.isSome = true →
        reg4 (chan t ch.toNat).a i.toNat =
          if i = r.geo.dreg ∧ r.geo.dinc = true then reg4 (chan s ch.toNat).a i.toNat + BitVec.ofNat 48 (r.geo.n * r.geo.e)
          else reg4 (chan s ch.toNat).a i.toNat) ∧
      (r.geo.wt = false → (chan t ch.toNat).watchVal = (chan s ch.toNat).watchVal ∧
        (chan t ch.toNat).watchCnt = (chan s ch.toNat).watchCnt) ∧
      (r.geo.wt = true → ∀ w, (chan s ch.toNat).tap = some w → (chan t ch.toNat).watchVal = w ∧
        (chan t ch.toNat).watchCnt = if w = (chan s ch.toNat).watchVal then satAdd (chan s ch.toNat).watchCnt 1 else 0) ∧
      KeepsMemory s t

/-! ### Starting and stopping (04, 09) -/

/-- CH_START, a write of 1 to EN that the port serves (`hostTurn`): it starts an assigned IDLE channel at CH_ENTRY, READY with EN 1, its
progress and detector cleared, the A and L registers and the settings kept (04 R97, Table 4.9; that CH_DL is cleared too is the model's
choice, log entry 46). With a STOP of the same ccyc, before or after the write, the channel starts again in the next (04 R99): a channel
that may yet come to a STOP in it, RUNNING or READY, keeps a note of the write. On an unassigned channel, during a soft reset or a
self-test that forbids it (13 R343), and in any other state, it has no effect but its answer. -/
def Obligations.EnableStartsAnIdleChannel : Prop :=
  ∀ (s : State) (ch : Chan), hostTurn s = true →
    ((chan s ch.toNat).assigned = true → s.srst.start = none → selfTesting s = false →
      ((chan s ch.toNat).st = .idle → (chan s ch.toNat).stopAt ≠ some s.clk.now →
        ∃ t, exec (.chStart ch) s = .next t ∧ (chan t ch.toNat).st = .ready ∧ (chan t ch.toNat).en = true ∧
          (chan t ch.toNat).pc = (chan s ch.toNat).entry ∧ (chan t ch.toNat).entry = (chan s ch.toNat).entry ∧
          progress (chan t ch.toNat) = (false, 0, 0, 0, 0, false, 0) ∧ (chan t ch.toNat).a = (chan s ch.toNat).a ∧
          (chan t ch.toNat).l = (chan s ch.toNat).l ∧ (chan t ch.toNat).since = s.clk.now ∧
          OnlyChannel ch.toNat (answer 0 false s) t) ∧
      ((chan s ch.toNat).st = .idle → (chan s ch.toNat).stopAt = some s.clk.now →
        ∃ t, exec (.chStart ch) s = .next t ∧ chan t ch.toNat = { chan s ch.toNat with startNext := true } ∧
          OnlyChannel ch.toNat (answer 0 false s) t) ∧
      ((chan s ch.toNat).st = .running ∨ (chan s ch.toNat).st = .ready →
        ∃ t, exec (.chStart ch) s = .next t ∧ chan t ch.toNat = { chan s ch.toNat with enAt := some s.clk.now } ∧
          OnlyChannel ch.toNat (answer 0 false s) t)) ∧
    ((chan s ch.toNat).assigned = false ∨ s.srst.start ≠ none ∨ selfTesting s = true ∨
      ((chan s ch.toNat).st ≠ .idle ∧ (chan s ch.toNat).st ≠ .running ∧ (chan s ch.toNat).st ≠ .ready) →
      exec (.chStart ch) s = .next (answer 0 false s))

/-- CH_ABORT, a write of 0 to EN, aborts a channel that is neither IDLE nor ABORTING, one that a STOP of this ccyc made IDLE included,
and before any progress that this ccyc has brought it: EN 0, the fault latch invalid, IN_MOVE and DL_ARMED 0, IDLE if no tag of it is
outstanding and ABORTING otherwise; its registers and CH_PC stay as the retirement of a MOVE or PUTI whose last beat has left leaves them
(05 R120). No channel but a victim waiting for its mover is touched (09 R238; 04 R97, R99). A PARK of it that is in progress fails with
0x05 as the ccyc ends, the model's choice (log entry 22). An IDLE or ABORTING channel stays as it is, and so does one that was IDLE before
this ccyc's late error. -/
def Obligations.AbortReturnsToIdle : Prop :=
  ∀ (s u v : State) (ch : Chan), hostTurn s = true → u = unstop ch.toNat (yieldProgress ch.toNat (answer 0 false s)) →
    v = settle ch.toNat u → (chan u ch.toNat).resetting = false →
    ((chan u ch.toNat).st ≠ .idle → (chan u ch.toNat).st ≠ .aborting → idleBefore s ch.toNat = false →
      ∃ t, exec (.chAbort ch) s = .next t ∧ (chan t ch.toNat).en = false ∧
        (chan t ch.toNat).st = (if noTags s ch.toNat then .idle else .aborting) ∧
        (chan t ch.toNat).faultInfo.valid = false ∧ (chan t ch.toNat).inMove = false ∧ (chan t ch.toNat).dlArmed = false ∧
        (chan t ch.toNat).haltPend = false ∧ (chan t ch.toNat).parkPend = false ∧
        (chan t ch.toNat).pc = (chan v ch.toNat).pc ∧ (chan t ch.toNat).a = (chan v ch.toNat).a ∧
        (chan t ch.toNat).l = (chan v ch.toNat).l ∧ (chan t ch.toNat).entry = (chan u ch.toNat).entry ∧ KeepsMemory s t ∧
        (∀ k, k ≠ ch.toNat → (∀ e ∈ s.movers, e.2.victim ≠ some k) → chan t k = chan s k) ∧
        (s.cmd.job = .park ch.toNat → (sealCcyc t).cmd.busy = false ∧ (sealCcyc t).cmd.err = true ∧ (sealCcyc t).cmd.code = 5)) ∧
    ((chan u ch.toNat).st = .idle ∨ (chan u ch.toNat).st = .aborting ∨ idleBefore s ch.toNat = true →
      exec (.chAbort ch) s = .next (answer 0 false s))

/-- HALT_ENTRY, by its source. A fault held with a RUNNING or WAITING channel becomes its halt once Table 9.5 lets it: HALTED with the
latches of the fault, HALT_PEND 0; the A and L registers, CH_PC and CH_MOVE_WR keep their values; as the ccyc ends, CH_FAULT is set and
the fault log has the CH_HALT entry, where it has room (09 R224 to R226, Table 9.10). A program-store word found uncorrectable when the channel comes to execute it, or the data word of a PUTI with SZ 1, halts the
channel with FETCH, detail 0x1, at the address of the word, unless its MOVE or PUTI is under way (04 R106; 05 R136; 09 Table 9.4). An
uncorrectable word of a context sets ECC_MEM_UE and halts the channel with ECC, or leaves it ABORTING (04 R94); what its fields then
hold is a free value of the model (log entries 6, 14). A word that the engine corrects halts nothing and is counted at its check
point; an uncorrectable word of the retained configuration sets ECC_MEM_UE and writes a MEM_UE entry (06 R178, Table 6.3; 14 R355;
log entry 15). -/
def Obligations.HaltEntryLatchesTheFault : Prop :=
  (∀ (s : State) (ch : Chan) (r : FaultRec), coreOn s = true → (chan s ch.toNat).held = some r →
    ((chan s ch.toNat).st = .running ∨ (chan s ch.toNat).st = .waiting) → haltReady s ch.toNat = true →
    ∃ t, exec (.haltEntry ch .held) s = .next t ∧
      HaltedWith ch.toNat { cause := r.cause, detail := r.detail, dir := r.dir, port := r.port } r.addr s t ∧
      (chan t ch.toNat).haltPend = false ∧ (chan t ch.toNat).moveWr = (chan s ch.toNat).moveWr ∧
      settings (chan t ch.toNat) = settings (chan s ch.toNat) ∧ (sealCcyc t).irq.cause.getLsbD 0 = true ∧
      (s.flog.entries.length < 60 → (∀ k, (chan s k).logs = []) →
        ∃ e ∈ (sealCcyc t).flog.entries, e.kind = 1 ∧ e.ch = ch ∧ e.cause = causeCode r.cause ∧ e.detail = r.detail ∧
          e.addr = r.addr ∧ e.time = fld s.clk.ridge 0 32)) ∧
  (∀ (s : State) (ch : Chan) (data : Bool), mayExecute s ch.toNat = true → (chan s ch.toNat).pc.sys = false →
    ((chan s ch.toNat).inMove = false ∨ (chan s ch.toNat).run = none ∨ (chan s ch.toNat).recheck = true) →
    (data = true → dataAt s (chan s ch.toNat) = true) →
    ∃ t, exec (.haltEntry ch (.storeWord data)) s = .next t ∧
      HaltedWith ch.toNat { cause := .fetch, detail := 1, dir := dirFetch }
        (if data then (chan s ch.toNat).pc.addr + 8 else (chan s ch.toNat).pc.addr) s t) ∧
  (∀ (s : State) (ch : Chan) (w : BitVec 5), coreOn s = true →
    ∃ t, exec (.haltEntry ch (.contextWord w)) s = .next t ∧ t.irq.cause.getLsbD 5 = true ∧ KeepsMemory s t ∧
      ((chan s ch.toNat).st ≠ .aborting → (chan t ch.toNat).st = .halted ∧ (chan t ch.toNat).faultInfo.cause = .ecc ∧
        (sealCcyc t).irq.cause.getLsbD 0 = true) ∧
      ((chan s ch.toNat).st = .aborting → (chan t ch.toNat).st = .aborting)) ∧
  ∀ (s : State) (ch : Chan), coreOn s = true →
    (∀ e (k : BitVec 3), (e = .fixedContext ∧ k = 2) ∨ (e = .fixedStore ∧ k = 3) ∨ (e = .fixedKept ∧ k = 4) →
      ∃ t, exec (.haltEntry ch (.found e)) s = .next t ∧ t.mon.eccSrc = k ∧ t.mon.eccCnt = satAdd s.mon.eccCnt 1 ∧
        t.flog = s.flog ∧ t.chans = s.chans ∧ KeepsMemory s t) ∧
    ∀ w, ∃ t, exec (.haltEntry ch (.found (.kept w))) s = .next t ∧ t.irq.cause.getLsbD 5 = true ∧ t.chans = s.chans ∧
      (s.flog.entries.length < 64 → ∃ e ∈ t.flog.entries, e.kind = 8 ∧ e.detail = 4) ∧ KeepsMemory s t

/-- PARK_ENTRY: a RUNNING channel asked to park enters PARKED at the beat boundary, after the retirement of a MOVE or PUTI whose last
beat has left, with PARK_SRC as the request gave it and its registers, CH_PC, IN_MOVE and progress fields as they stand; a PARK in
progress completes as the ccyc ends (09 R241, R242; 13 R338). -/
def Obligations.ParkEntryParks : Prop :=
  ∀ (s u : State) (ch : Chan), coreOn s = true → (chan s ch.toNat).st = .running → (chan s ch.toNat).parkPend = true →
    (chan s ch.toNat).held = none → (chan s ch.toNat).parkAt < s.clk.now → owesBeats s ch.toNat = false →
    u = settle ch.toNat s →
    ∃ t, exec (.parkEntry ch) s = .next t ∧ (chan t ch.toNat).st = .parked ∧
      (chan t ch.toNat).parkSrc = (chan s ch.toNat).parkSrcNext ∧ (chan t ch.toNat).parkPend = false ∧
      (chan t ch.toNat).pc = (chan u ch.toNat).pc ∧ (chan t ch.toNat).a = (chan u ch.toNat).a ∧
      (chan t ch.toNat).l = (chan s ch.toNat).l ∧ progress (chan t ch.toNat) = progress (chan u ch.toNat) ∧
      settings (chan t ch.toNat) = settings (chan s ch.toNat) ∧ KeepsMemory s t ∧
      (s.cmd.job = .park ch.toNat → (sealCcyc t).cmd.busy = false ∧ (sealCcyc t).cmd.done = true ∧ (sealCcyc t).cmd.code = 0)

/-- INSTANT_REACHED: a WAIT on an instant completes once ridge time has reached it: READY after the WAIT (05 R147). DEADLINE: a channel
whose WAIT on a line, an event or a global event is not met when its deadline is reached halts with DEADLINE, detail 0x0, and raises
its stale event in the same ccyc (05 R149); an edge that is handled in the ccyc and belongs to the channel meets its WAIT on the line (03
R73). -/
def Obligations.InstantsAndDeadlines : Prop :=
  ∀ (s : State) (ch : Chan), coreOn s = true → (chan s ch.toNat).st = .waiting → (chan s ch.toNat).held = none →
    ((chan s ch.toNat).waitOn = .instant → (chan s ch.toNat).dl.toNat ≤ s.clk.ridge.toNat →
      ∃ t, exec (.instantReached ch) s = .next t ∧ (chan t ch.toNat).st = .ready ∧
        (chan t ch.toNat).pc = (chan s ch.toNat).pc.plus 8 ∧ (chan t ch.toNat).dl = 0 ∧
        (chan t ch.toNat).a = (chan s ch.toNat).a ∧ (chan t ch.toNat).l = (chan s ch.toNat).l ∧
        settings (chan t ch.toNat) = settings (chan s ch.toNat) ∧ OnlyChannelNoted ch.toNat s t) ∧
    ((chan s ch.toNat).waitOn = .line ∨ (chan s ch.toNat).waitOn = .event ∨ (chan s ch.toNat).waitOn = .gevent →
      deadlineDue s (chan s ch.toNat) = true →
      ((chan s ch.toNat).waitOn = .line → (line s (chan s ch.toNat).waitArg.toNat).use = .wake →
        lineOwner s (chan s ch.toNat).waitArg.toNat ≠ some ch.toNat) →
      ∃ t, exec (.deadline ch) s = .next t ∧ HaltedWith ch.toNat { cause := .deadline } 0 s t ∧
        t.ev.raised = (match staleOf s (chan s ch.toNat) with
          | some e => insertNat e.toNat s.ev.raised
          | none => s.ev.raised)) ∧
    ((chan s ch.toNat).waitOn = .line → (line s (chan s ch.toNat).waitArg.toNat).use = .wake →
      lineOwner s (chan s ch.toNat).waitArg.toNat = some ch.toNat → exec (.deadline ch) s = .next s)

/-! ### Scheduler and arbiters (07) -/

/-- CHANNEL_SELECT. The candidates of a ccyc are exactly the listed channels that meet the condition of 07 R182, each placed after
every one that outranks it by Table 7.1 (07 R181). The pass of one ccyc (07 R182): a lone READY candidate at an instruction that needs
no mover becomes RUNNING; one at a MOVE or PUTI is bound to the lowest free mover of its pools; without candidates nothing changes. With
many candidates, and every mover free in one pool, the budgets of 8 go in rank order: the first 8 that are READY at an instruction without a
mover become RUNNING, and the first 8 that need a mover have movers 0 to 7; the rest stay as they are. An
URGENT one that finds no free mover takes that of the victim of 07 R186: the victim is READY with IN_MOVE 1 and without a mover, its age
from this ccyc on, CH_PC, its registers and its progress kept (07 R187). A mover that is released goes back to the victim it was taken
from, if that is still READY in its MOVE without a mover, and is free otherwise: the victim is RUNNING again, and a fault held with it is
raised instead (07 R188, R189). -/
def Obligations.TheSchedulerSelects : Prop :=
  (∀ s : State, (∀ ch, ch ∈ candidates s ↔ ∃ e ∈ s.chans, e.1 = ch ∧ isCandidate s ch e.2 = true) ∧
    (candidates s).Pairwise (fun a b => ranksAbove s b a = false)) ∧
  ∀ s : State, schedOn s = true →
    (candidates s = [] →
      exec .channelSelect s = .next { s with clk := { s.clk with selectAt := some s.clk.now, passed := [] } }) ∧
    (canon ({} : Channel) s.chans = true → s.movers = [] → s.ures = 0 → s.tres = 0 →
      (∀ ch ∈ candidates s, (chan s ch).held = none) →
      ((∀ ch ∈ candidates s, (chan s ch).st = .ready → ∃ w, obtain s (chan s ch) = .word w ∧ needsMover w = false) →
        ∃ t, exec .channelSelect s = .next t ∧ KeepsMemory s t ∧
          (∀ ch ∈ ((candidates s).filter (fun ch => (chan s ch).st == .ready)).take 8,
            (chan t ch).st = .running ∧ (chan t ch).nextAt = s.clk.now) ∧
          (∀ i ch, i < 8 → ((candidates s).filter (fun ch => (chan s ch).st == .running))[i]? = some ch →
            (mover t i).ch = some ch ∧ (chan t ch).st = .running) ∧
          ∀ ch, ch ∉ ((candidates s).filter (fun ch => (chan s ch).st == .ready)).take 8 →
            ch ∉ ((candidates s).filter (fun ch => (chan s ch).st == .running)).take 8 → chan t ch = chan s ch) ∧
      ((∀ ch ∈ candidates s, atMover s (chan s ch) = true) →
        ∃ t, exec .channelSelect s = .next t ∧ KeepsMemory s t ∧
          (∀ i ch, i < 8 → (candidates s)[i]? = some ch → (mover t i).ch = some ch ∧ (chan t ch).st = .running) ∧
          ∀ ch, ch ∉ (candidates s).take 8 → chan t ch = chan s ch)) ∧
    (∀ ch w, candidates s = [ch] → (chan s ch).st = .ready → (chan s ch).held = none →
      isCandidate s ch (chan s ch) = true → obtain s (chan s ch) = .word w →
      (needsMover w = false →
        ∃ t, exec .channelSelect s = .next t ∧ (chan t ch).st = .running ∧ (chan t ch).nextAt = s.clk.now ∧
          (chan t ch).pc = (chan s ch).pc ∧ (chan t ch).a = (chan s ch).a ∧ (chan t ch).l = (chan s ch).l ∧
          t.movers = s.movers ∧ KeepsOthers ch s t ∧ KeepsMemory s t) ∧
      (∀ m, needsMover w = true → freeMover s (chan s ch).cls = some m →
        ∃ t, exec .channelSelect s = .next t ∧ (chan t ch).st = .running ∧ (mover t m).ch = some ch ∧
          (chan t ch).pc = (chan s ch).pc ∧ (chan t ch).a = (chan s ch).a ∧ (chan t ch).l = (chan s ch).l ∧
          (canon ({} : Mover) s.movers = true → ∀ k, k ≠ m → (mover t k).ch = (mover s k).ch) ∧
          KeepsOthers ch s t ∧ KeepsMemory s t) ∧
      (∀ v m, needsMover w = true → freeMover s (chan s ch).cls = none → (chan s ch).cls = .urgent →
        bestBy (betterVictim s) (victims s) = some (v, m) → v ≠ ch → canRetire s v = false → (chan s v).held = none →
        parkDue s v (chan s v) = false →
        ∃ t, exec .channelSelect s = .next t ∧ (chan t ch).st = .running ∧ (mover t m).ch = some ch ∧
          (mover t m).victim = some v ∧ (chan t v).st = .ready ∧ (chan t v).inMove = true ∧ (chan t v).since = s.clk.now ∧
          (chan t v).pc = (chan s v).pc ∧ (chan t v).a = (chan s v).a ∧ (chan t v).l = (chan s v).l ∧
          (chan t v).moveWr = (chan s v).moveWr ∧ (chan t v).moveRd = (chan s v).moveRd ∧
          (∀ k, k ≠ ch → k ≠ v → chan t k = chan s k) ∧ KeepsMemory s t)) ∧
  ∀ (s : State) (m : Nat),
    (∀ v, (mover s m).victim = some v → (chan s v).st = .ready → (chan s v).inMove = true → moverOf s v = none →
      s.mon.frzSched = false →
      ((chan s v).held = none →
        (mover (releaseMover m s) m).ch = some v ∧ (chan (releaseMover m s) v).st = .running ∧
        (chan (releaseMover m s) v).moveWr = (chan s v).moveWr ∧ KeepsOthers v s (releaseMover m s) ∧
        KeepsMemory s (releaseMover m s)) ∧
      ((chan s v).held ≠ none → mover (releaseMover m s) m = {} ∧
        ((chan (releaseMover m s) v).st = .halted ∨ (chan (releaseMover m s) v).raised = true))) ∧
    ((mover s m).victim = none ∨ (∃ v, (mover s m).victim = some v ∧ (chan s v).st ≠ .ready) →
      mover (releaseMover m s) m = {} ∧ (releaseMover m s).chans = s.chans)

/-- ARBITER_DECISION. The choice (07 R195, R196, R199): nothing without visible requests, but that a mover whose PUTI to the same port
follows its burst keeps the grant (05 R139), and loses it to an URGENT request only if it is not URGENT itself. A holder that is visible
keeps the port, but for an URGENT request against a holder that is not URGENT. A holder that is not visible, though it may be presenting,
has lost it: then, and with no holder, an URGENT request is chosen, the owner of the peg first, then the owner of the peg, then the best by
the background ranking. The holder presents if it is eligible; if not, its cycle is lent to an eligible request, an URGENT one first, and
the holder keeps the grant. What presents is visible and eligible. The row records the choice once in a port cycle: the holder, and the
request that presents in the next one, which leaves the list; one withdrawn in this ccyc leaves that cycle dead (07 R197). A
requester that waits grows older by one, up to the end of its counter, and starves when its age becomes the threshold of its class: the
cause is set, and the record is taken unless one is held (07 R205, R206). Channels, memory and the other ports stay. A frozen arbiter
decides nothing (17 R401). When a port cycle begins, the granted request is presented, a read taking its tag, a write with its beat 0, and
a burst under way presents its next beat, beside a granted read too; with neither, nothing is presented; the credits used are gone and
those returned are there (`beginCredits`; 02 R43, R46, R56). A beat that is not in staging in time goes out poisoned (06 R175). -/
def Obligations.TheArbiterDecides : Prop :=
  (∀ (s : State) (n : Nat) (p : Port) (v : List Request),
    (chainAhead s n p = false → decidePort s n p [] = (none, none)) ∧
    (chainAhead s n p = true → decidePort s n p [] = (p.holder, none)) ∧
    (∀ q, (decidePort s n p v).2 = some q → q ∈ v ∧ eligible p q = true) ∧
    (∀ h q, p.holder = some h → v.find? (fun x => x.who == h) = some q →
      ((chan s q.ch).cls = .urgent ∨ (∀ x ∈ v, (chan s x.ch).cls ≠ .urgent) → (decidePort s n p v).1 = some h ∧
        (eligible p q = true → (decidePort s n p v).2 = some q) ∧
        (eligible p q = false →
          ((∀ x ∈ v, eligible p x = false) → (decidePort s n p v).2 = none) ∧
          ((∃ x ∈ v, eligible p x = true) → ∃ x ∈ v, (decidePort s n p v).2 = some x ∧ eligible p x = true) ∧
          ((∃ x ∈ v, eligible p x = true ∧ (chan s x.ch).cls = .urgent) →
            ∃ x ∈ v, (decidePort s n p v).2 = some x ∧ (chan s x.ch).cls = .urgent))) ∧
      ((chan s q.ch).cls ≠ .urgent → (∃ x ∈ v, (chan s x.ch).cls = .urgent) →
        ∃ x ∈ v, (chan s x.ch).cls = .urgent ∧ (decidePort s n p v).1 = some x.who)) ∧
    ((∀ h, p.holder = some h → ∀ q ∈ v, q.who ≠ h) →
      (chainAhead s n p = true → (holderUrgent s p = true ∨ ∀ q ∈ v, (chan s q.ch).cls ≠ .urgent) →
        (decidePort s n p v).1 = p.holder ∧ ((∀ x ∈ v, eligible p x = false) → (decidePort s n p v).2 = none) ∧
        ((∃ x ∈ v, eligible p x = true) → ∃ x ∈ v, (decidePort s n p v).2 = some x ∧ eligible p x = true) ∧
        ((∃ x ∈ v, eligible p x = true ∧ (chan s x.ch).cls = .urgent) →
          ∃ x ∈ v, (decidePort s n p v).2 = some x ∧ (chan s x.ch).cls = .urgent)) ∧
      (chainAhead s n p = false ∨ holderUrgent s p = false → (∃ q ∈ v, (chan s q.ch).cls = .urgent) →
        ∃ q ∈ v, (chan s q.ch).cls = .urgent ∧ (decidePort s n p v).1 = some q.who) ∧
      (chainAhead s n p = false →
        (∀ o, pegOwner s (pegAt s n (nextCycle s p)) (bgAbove s p (nextCycle s p)) v = some o →
          ((chan s o.ch).cls = .urgent ∨ ∀ q ∈ v, (chan s q.ch).cls ≠ .urgent) → (decidePort s n p v).1 = some o.who) ∧
        (pegOwner s (pegAt s n (nextCycle s p)) (bgAbove s p (nextCycle s p)) v = none →
          (∀ q ∈ v, (chan s q.ch).cls ≠ .urgent) → v ≠ [] →
          ∃ q ∈ v, (decidePort s n p v).1 = some q.who ∧ ∀ x ∈ v, bgAbove s p (nextCycle s p) x q = false)))) ∧
  (∀ (s : State) (n : PortNo), coreOn s = true → (port s n.toNat).en = true →
    (port s n.toNat).decidedAt = some (cycleStart s (port s n.toNat)) → exec (.arbiterDecision n) s = .next s) ∧
  (∀ (s : State) (n : PortNo), coreOn s = true → (port s n.toNat).en = true →
    (port s n.toNat).decidedAt ≠ some (cycleStart s (port s n.toNat)) →
    (s.mon.frzArb.getLsbD n.toNat = false →
      ∃ t, exec (.arbiterDecision n) s = .next t ∧
        (port t n.toNat).holder = (decidePort s n.toNat (port s n.toNat) (visible s (port s n.toNat))).1 ∧
        (port t n.toNat).grant = (match (decidePort s n.toNat (port s n.toNat) (visible s (port s n.toNat))).2 with
          | some q => if q.gone then none else some q
          | none => none) ∧
        (port t n.toNat).reqs = (match (port t n.toNat).grant with
          | some q => (port s n.toNat).reqs.filter (fun x => x != q)
          | none => (port s n.toNat).reqs) ∧
        (port t n.toNat).decidedAt = some (cycleStart s (port s n.toNat)) ∧
        (port t n.toNat).rqCred = (port s n.toNat).rqCred ∧ (port t n.toNat).wdCred = (port s n.toNat).wdCred ∧
        t.chans = s.chans ∧ KeepsMemory s t ∧ ∀ k, k ≠ n.toNat → port t k = port s k) ∧
    (s.mon.frzArb.getLsbD n.toNat = true →
      ∃ t, exec (.arbiterDecision n) s = .next t ∧ (port t n.toNat).holder = (port s n.toNat).holder ∧
        (port t n.toNat).grant = (port s n.toNat).grant ∧ (port t n.toNat).reqs = (port s n.toNat).reqs ∧
        (port t n.toNat).decidedAt = some (cycleStart s (port s n.toNat)) ∧ t.chans = s.chans ∧ KeepsMemory s t ∧
        ∀ k, k ≠ n.toNat → port t k = port s k) ∧
    ∀ q, visible s (port s n.toNat) = [q] → (port s n.toNat).presents ≠ some q.who →
      ∃ t, exec (.arbiterDecision n) s = .next t ∧
        get 0 (port t n.toNat).ages (reqKey q.who) = min 65535 (get 0 (port s n.toNat).ages (reqKey q.who) + 1) ∧
        (get 0 (port s n.toNat).ages (reqKey q.who) + 1 = threshold (port s n.toNat) (chan s q.ch).cls →
          t.irq.cause.getLsbD (16 + n.toNat) = true ∧
          ((port s n.toNat).starve.valid = true → (port t n.toNat).starve = (port s n.toNat).starve) ∧
          ((port s n.toNat).starve.valid = false → (port t n.toNat).starve.valid = true ∧
            (port t n.toNat).starve.ch = BitVec.ofNat 10 q.ch ∧ (port t n.toNat).starve.cls = clsCode (chan s q.ch).cls ∧
            (∀ m, q.who = .mover m → (port t n.toNat).starve.mover = m ∧ (port t n.toNat).starve.fetch = false) ∧
            (∀ c, q.who = .fetch c → (port t n.toNat).starve.fetch = true))) ∧
        (min 65535 (get 0 (port s n.toNat).ages (reqKey q.who) + 1) ≠ threshold (port s n.toNat) (chan s q.ch).cls →
          (port t n.toNat).starve = (port s n.toNat).starve ∧ t.irq = s.irq)) ∧
  ∀ (s : State) (n : Nat),
    ((port s n).grant = none → (port s n).burst = none →
      (port (beginCycle n s) n).rqOut = none ∧ (port (beginCycle n s) n).wdOut = none ∧ (port (beginCycle n s) n).presents = none ∧
      (port (beginCycle n s) n).rqUsed = (port s n).rqUsed ∧ (port (beginCycle n s) n).wdUsed = (port s n).wdUsed) ∧
    (∀ q, (port s n).grant = some q → (port s n).burst = none → s.mon.frzArb.getLsbD n = false → portsSilent s = false →
      (q.write = false →
        (port (beginCycle n s) n).rqOut = some (rqOf (chan s q.ch) q) ∧ (port (beginCycle n s) n).wdOut = none ∧
        (port (beginCycle n s) n).presents = some q.who ∧ (port (beginCycle n s) n).rqUsed = (port s n).rqUsed + 1 ∧
        (port (beginCycle n s) n).grant = none ∧
        ∃ k, get none (port (beginCycle n s) n).rtags q.tag.toNat = some k ∧ k.ch = q.ch ∧ k.addr = q.addr ∧ k.len = q.len ∧
          k.got = 0) ∧
      (∀ sl, q.write = true → slotOf s q.ch q.tag = some sl → sl.tag = q.tag →
        (port (beginCycle n s) n).rqOut = some (rqOf (chan s q.ch) q) ∧ (port (beginCycle n s) n).rqUsed = (port s n).rqUsed + 1 ∧
        (port (beginCycle n s) n).wdUsed = (port s n).wdUsed + 1 ∧ (∃ w, (port (beginCycle n s) n).wdOut = some w ∧ w.last = (sl.len == 1)) ∧
        (port (beginCycle n s) n).burst =
          (if sl.len = 1 then none else some { ch := q.ch, tag := q.tag, len := sl.len, next := 1 }) ∧
        ∃ k, get none (port (beginCycle n s) n).wtags q.tag.toNat = some k ∧ k.ch = q.ch ∧ k.len = q.len ∧ k.sent = 1)) ∧
    (∀ p, port s n = p → n < 8 →
      port (beginCredits s) n = (if cycleBegins s n then { p with
        rqCred := p.rqCred + p.rqRet - p.rqUsed, wdCred := p.wdCred + p.wdRet - p.wdUsed
        rqUsed := 0, rqRet := 0, wdUsed := 0, wdRet := 0 } else p) ∧ { beginCredits s with ports := s.ports } = s) ∧
    (∀ b sl r q, (port s n).burst = some b → slotOf s b.ch b.tag = some sl → (chan s b.ch).run = some r →
      (port s n).grant = some q → q.write = false → s.mon.frzArb.getLsbD n = false → portsSilent s = false →
      (port (beginCycle n s) n).rqOut = some (rqOf (chan s q.ch) q) ∧ (port (beginCycle n s) n).presents = some q.who ∧
      (∃ w, (port (beginCycle n s) n).wdOut = some w ∧ w.last = (b.next + 1 == sl.len)) ∧
      (port (beginCycle n s) n).rqUsed = (port s n).rqUsed + 1 ∧ (port (beginCycle n s) n).wdUsed = (port s n).wdUsed + 1 ∧
      ∃ k, get none (port (beginCycle n s) n).rtags q.tag.toNat = some k ∧ k.ch = q.ch ∧ k.addr = q.addr ∧ k.len = q.len ∧
        k.got = 0) ∧
    ∀ b sl r, (port s n).burst = some b → (port s n).grant = none → slotOf s b.ch b.tag = some sl → (chan s b.ch).run = some r →
      (∃ w, (port (beginCycle n s) n).wdOut = some w ∧ w.last = (b.next + 1 == sl.len) ∧
        (sl.badSrc = true ∨ beatState r (sl.unit + b.next) = .missing ∨ beatState r (sl.unit + b.next) = .bad →
          w.poison = true)) ∧
      (port (beginCycle n s) n).rqOut = none ∧ (port (beginCycle n s) n).wdUsed = (port s n).wdUsed + 1 ∧
      (port (beginCycle n s) n).burst =
        (if b.next + 1 = sl.len then none else some { ch := b.ch, tag := sl.tag, len := sl.len, next := b.next + 1 })

/-! ### Accesses of a mover and of a fetch (06, 04) -/

/-- SLOT_RESERVE: a mover at work reserves a slot for its next destination access, a part to be sent again first (06 R176), else the
units that follow, at most 8 slots at a time (06 R167); nothing but the channel's run changes. READ_ISSUE: once no further slot can be
reserved, the mover registers its next read for the elements of its reserved slots; a channel that waits for a fetch registers, once,
the one beat of its group on the fetch port; each where the tag is free and no domain it needs is closed (06 R167; 04 R105); nothing
but the port, and the fetch's mark in its channel, changes. WRITE_LAUNCH: a mover registers the write of a slot that may be launched,
with the slot's burst and tag, and the slot counts as launched; no memory, no other channel and no other port changes (06 R174). -/
def Obligations.AccessesAreRegistered : Prop :=
  (∀ (s : State) (m : MoverNo) (tag : Tag) (ch : Nat) (r : Run), workOf s m.toNat = some (ch, r) → r.slots.length < 8 →
    tagPermitted (chan s ch) tag (writeTagFree s r.geo.dport) = true →
    (r.resend = [] → r.resv < units r.geo →
      ∃ t, exec (.slotReserve m tag) s = .next t ∧ OnlyChannel ch s t ∧
        { chan t ch with run := none } = { chan s ch with run := none } ∧
        (chan t ch).run = some { r with
          resv := r.resv + dstLen r.geo r.resv
          slots := r.slots ++ [{ tag := tag, unit := r.resv, len := dstLen r.geo r.resv, since := s.clk.now }] }) ∧
    (∀ u n k rest, r.resend = (u, n, k) :: rest →
      ∃ t, exec (.slotReserve m tag) s = .next t ∧ OnlyChannel ch s t ∧
        { chan t ch with run := none } = { chan s ch with run := none } ∧
        (chan t ch).run = some { r with
          resend := rest
          slots := r.slots ++ [{ tag := tag, unit := u, len := n, whole := true, since := s.clk.now, first := k }] })) ∧
  (∀ (s : State) (m : MoverNo) (tag : Tag) (ch : Nat) (r : Run), workOf s m.toNat = some (ch, r) →
    r.geo.imm = none → readCursor s ch r < elemsUpTo r.geo r.resv → (port s r.geo.sport).en = true →
    hasRequest s r.geo.sport (.mover m) = false → tagPermitted (chan s ch) tag (readTagFree s r.geo.sport) = true →
    (∀ t : Tag, canReserve s ch r t = false) →
    (r.geo.sport = r.geo.dport → ∀ sl ∈ r.slots, launchable s r sl = none) →
    closedTo s (chan s ch) (nextRead r.geo (readCursor s ch r) (elemsUpTo r.geo r.resv)).1 = false →
    ∃ t q, exec (.readIssue (.mover m) tag) s = .next t ∧ OnlyPort r.geo.sport s t ∧
      (port t r.geo.sport).reqs = (port s r.geo.sport).reqs ++ [q] ∧
      { port t r.geo.sport with reqs := [] } = { port s r.geo.sport with reqs := [] } ∧
      q.who = .mover m ∧ q.ch = ch ∧ q.write = false ∧ q.tag = tag ∧ q.time = s.clk.now ∧
      (q.addr.toNat, q.size, q.len, q.hi) =
        ((nextRead r.geo (readCursor s ch r) (elemsUpTo r.geo r.resv)).1 % 2 ^ 48,
          (nextRead r.geo (readCursor s ch r) (elemsUpTo r.geo r.resv)).2)) ∧
  (∀ (s : State) (ch : Chan) (tag : Tag) (g : Addr) (n : Nat), coreOn s = true →
    fetchGroup s (chan s ch.toNat) = some g → fetchPort s = some n → (chan s ch.toNat).held = none →
    (chan s ch.toNat).fetched = false → (port s n).en = true → hasRequest s n (.fetch ch) = false →
    tagPermitted (chan s ch.toNat) tag (readTagFree s n) = true → closedTo s (chan s ch.toNat) g.toNat = false →
    ∃ t q, exec (.readIssue (.fetch ch) tag) s = .next t ∧ chan t ch.toNat = { chan s ch.toNat with fetched := true } ∧
      (port t n).reqs = (port s n).reqs ++ [q] ∧ q.who = .fetch ch ∧ q.write = false ∧ q.addr = g ∧ q.size = 5 ∧
      q.len = 1 ∧ q.tag = tag ∧ KeepsOthers ch.toNat s t ∧ (∀ k, k ≠ n → port t k = port s k) ∧
      { t with chans := s.chans, ports := s.ports } = s) ∧
  ∀ (s : State) (m : MoverNo) (tag : Tag) (ch : Nat) (r : Run) (sl : Slot) (cut : Bool), workOf s m.toNat = some (ch, r) →
    r.slots.find? (fun x => x.tag == tag) = some sl → launchable s r sl = some cut → (port s r.geo.dport).en = true →
    hasRequest s r.geo.dport (.mover m) = false → rebuildBad r sl cut = none →
    (s.mon.nvStop = true → inNV s (BitVec.ofNat 48 (dstAddr r.geo sl.unit)).toNat = false) →
    closedTo s (chan s ch) (BitVec.ofNat 48 (dstAddr r.geo sl.unit)).toNat = false →
    ∃ t q, exec (.writeLaunch m tag) s = .next t ∧ (port t r.geo.dport).reqs = (port s r.geo.dport).reqs ++ [q] ∧
      q.who = .mover m ∧ q.ch = ch ∧ q.write = true ∧ q.addr = BitVec.ofNat 48 (dstAddr r.geo sl.unit) ∧
      q.size = dstSize r.geo ∧ q.len = sl.len ∧ q.tag = tag ∧
      (chan t ch).run = some { r with
        slots := r.slots.map (fun x => if x.tag = sl.tag then { sl with launched := true, cut := cut } else x) } ∧
      { chan t ch with run := none } = { chan s ch with run := none } ∧ KeepsOthers ch s t ∧
      (∀ k, k ≠ r.geo.dport → port t k = port s k) ∧ { t with chans := s.chans, ports := s.ports } = s

/-- While a domain is closed, a read that would issue in it is stopped with QUIESCE at its address (14 R366); while VMON_LOW is
asserted, from the ccyc after on, a write into an NV window is stopped with BROWNOUT (14 R370): the fault is held, HALT_PEND 0, and the
channel halts with it in the same ccyc, where no beat is owed and no failing read is still to end (09 R227, Table 9.5). -/
def Obligations.ForbiddenAccessesHalt : Prop :=
  ∀ (s : State) (m : MoverNo) (tag : Tag) (ch : Chan) (r : Run), workOf s m.toNat = some (ch.toNat, r) →
    (chan s ch.toNat).held = none → owesBeats s ch.toNat = false → failingTag s ch.toNat = false →
    (r.geo.imm = none → readCursor s ch.toNat r < elemsUpTo r.geo r.resv → (port s r.geo.sport).en = true →
      hasRequest s r.geo.sport (.mover m) = false → tagPermitted (chan s ch.toNat) tag (readTagFree s r.geo.sport) = true →
      (∀ t : Tag, canReserve s ch.toNat r t = false) → r.geo.sport ≠ r.geo.dport →
      closedTo s (chan s ch.toNat) (nextRead r.geo (readCursor s ch.toNat r) (elemsUpTo r.geo r.resv)).1 = true →
      ∃ t u, exec (.readIssue (.mover m) tag) s = .next t ∧ (chan t ch.toNat).haltPend = false ∧
        (chan t ch.toNat).held = some (quiesceFault
          (BitVec.ofNat 48 (nextRead r.geo (readCursor s ch.toNat r) (elemsUpTo r.geo r.resv)).1) dirRead r.geo.sport) ∧
        exec (.haltEntry ch .held) t = .next u ∧
        HaltedWith ch.toNat { cause := .quiesce, dir := dirRead, port := BitVec.ofNat 3 r.geo.sport }
          (BitVec.ofNat 48 (nextRead r.geo (readCursor s ch.toNat r) (elemsUpTo r.geo r.resv)).1) s u) ∧
    (∀ sl cut, r.slots.find? (fun x => x.tag == tag) = some sl → launchable s r sl = some cut →
      (port s r.geo.dport).en = true → hasRequest s r.geo.dport (.mover m) = false → rebuildBad r sl cut = none →
      s.mon.nvStop = true → inNV s (BitVec.ofNat 48 (dstAddr r.geo sl.unit)).toNat = true →
      ∃ t u, exec (.writeLaunch m tag) s = .next t ∧ (chan t ch.toNat).haltPend = false ∧
        (chan t ch.toNat).held = some (brownoutFault (BitVec.ofNat 48 (dstAddr r.geo sl.unit)) r.geo.dport) ∧
        exec (.haltEntry ch .held) t = .next u ∧
        HaltedWith ch.toNat { cause := .brownout, dir := dirWrite, port := BitVec.ofNat 3 r.geo.dport }
          (BitVec.ofNat 48 (dstAddr r.geo sl.unit)) s u)

/-! ### Responses and credits (02, 06, 09) -/

/-- READ_RESPONSE_BEAT. A good, clean beat of a data read is counted on its tag, which its last beat frees; where the MOVE still needs
it, it joins staging, and otherwise it is absorbed (02 R46, R52; 06 R163; 08 R213); it changes no other channel, but for the ccyc from
which beats in staging can be used (06 R165). A needed beat with one wrong bit joins staging corrected, a ccyc late, and is counted at
check point 0; a needed beat with an error response, or that cannot be corrected, raises its fault for the channel: HALT_PEND, with the
cause, address, port and detail of Tables 2.4, 6.4 and 9.4 (06 R178 to R180; 09 R226, R231). A beat of a broken tag is counted and
discarded; one of an orphaned tag, or of an ABORTING channel, is counted and checked, a correction too, and discarded (06 Table 6.3). A beat that completes a fetch group fills the prefetch buffer and makes its channel READY, in the next ccyc where it was
corrected; an error on it is held as the channel's fault (04 R105). A beat with bad port parity is dropped and breaks every read tag
outstanding on its port; it is logged with the channel of the tag that it names, if that is outstanding, PORT_PARITY is set, and no
channel, no write tag and no other port is affected (02 R62). -/
def Obligations.ReadBeatsLandOrFail : Prop :=
  (∀ (s : State) (n : PortNo) (b : RdBeat) (k : RTag) (r : Run), coreOn s = true → (port s n.toNat).en = true →
    rdParityOk b = true → get none (port s n.toNat).rtags b.tag.toNat = some k → k.orphan = false →
    k.fetch = false → (chan s k.ch).st = .running → (chan s k.ch).run = some r → (chan s k.ch).held = none →
    (k.broken = true → k.failed = false →
      ∃ t, exec (.readResponseBeat n b) s = .next t ∧
        get none (port t n.toNat).rtags b.tag.toNat = (if b.last then none else some { k with got := k.got + 1 }) ∧
        OnlyPort n.toNat s t) ∧
    (k.broken = false → b.last = (k.got + 1 == k.len) → b.resp = 0 → decodeBeat b.data b.chk = .clean →
      ∃ t, exec (.readResponseBeat n b) s = .next t ∧
        get none (port t n.toNat).rtags b.tag.toNat = (if b.last then none else some { k with got := k.got + 1 }) ∧
        (b.last = true → (port t n.toNat).freedR.getLsbD b.tag.toNat = true) ∧
        sansReady (chan t k.ch) = sansReady { chan s k.ch with
          run := some (if beatNeeded (chan s k.ch) k ((beatAddr k.addr k.size k.got).toNat / 32) then
            { r with staged := r.staged ++ [{ beat := (beatAddr k.addr k.size k.got).toNat / 32, lo := k.lo, hi := k.hi, s := k.s,
                                              data := b.data, chk := b.chk, time := s.clk.now, late := k.late, ready := 0,
                                              bad := false, tag := b.tag }] }
            else r) } ∧
        (∀ j, j ≠ k.ch → sansReady (chan t j) = sansReady (chan s j)) ∧ KeepsMemory s t ∧
        ∀ j, j ≠ n.toNat → port t j = port s j) ∧
    (k.broken = false → b.last = (k.got + 1 == k.len) →
      beatNeeded (chan s k.ch) k ((beatAddr k.addr k.size k.got).toNat / 32) = true →
      (∀ d x, b.resp = 0 → decodeBeat b.data b.chk = .corrected d x →
        ∃ t, exec (.readResponseBeat n b) s = .next t ∧
          sansReady (chan t k.ch) = sansReady { chan s k.ch with
            run := some { r with staged := r.staged ++ [{ beat := (beatAddr k.addr k.size k.got).toNat / 32, lo := k.lo, hi := k.hi,
                                                          s := k.s, data := d, chk := x, time := s.clk.now, late := true, ready := 0,
                                                          bad := false, tag := b.tag }] } } ∧
          t.mon.eccCnt = satAdd s.mon.eccCnt 1 ∧ t.mon.eccSrc = 0 ∧
          (s.mon.eccCnt ≠ 0xFFFF → s.mon.eccCnt + 1 = s.mon.eccThr → t.irq.cause.getLsbD 4 = true) ∧
          (∀ j, j ≠ k.ch → sansReady (chan t j) = sansReady (chan s j)) ∧ KeepsMemory s t) ∧
      (k.failed = false → unmoved s k.ch = true →
        (1 ≤ b.resp.toNat → b.resp.toNat ≤ 4 →
          ∃ t, exec (.readResponseBeat n b) s = .next t ∧ (chan t k.ch).haltPend = true ∧
            (chan t k.ch).held = some { cause := respCause b.resp, addr := beatAddr k.addr k.size k.got, dir := dirRead, port := n,
                                        detail := respDetail b.resp b.detail, resp := b.resp, tag := b.tag } ∧
            (chan t k.ch).a = (chan s k.ch).a ∧ (chan t k.ch).pc = (chan s k.ch).pc ∧
            (∀ j, j ≠ k.ch → sansReady (chan t j) = sansReady (chan s j)) ∧ KeepsMemory s t) ∧
        (b.resp = 0 → decodeBeat b.data b.chk = .uncorrectable →
          ∃ t, exec (.readResponseBeat n b) s = .next t ∧ (chan t k.ch).haltPend = true ∧
            (chan t k.ch).held = some { cause := .ecc, addr := beatAddr k.addr k.size k.got, dir := dirRead, port := n, detail := 1,
                                        resp := 0, tag := b.tag } ∧
            (chan t k.ch).a = (chan s k.ch).a ∧ (chan t k.ch).pc = (chan s k.ch).pc ∧
            (∀ j, j ≠ k.ch → sansReady (chan t j) = sansReady (chan s j)) ∧ KeepsMemory s t)))) ∧
  (∀ (s : State) (n : PortNo) (b : RdBeat) (k : RTag), coreOn s = true → (port s n.toNat).en = true →
    rdParityOk b = true → get none (port s n.toNat).rtags b.tag.toNat = some k → k.broken = false →
    b.last = (k.got + 1 == k.len) → k.orphan = true ∨ (chan s k.ch).st = .aborting →
    ∃ t, exec (.readResponseBeat n b) s = .next t ∧ t.chans = s.chans ∧ t.flog = s.flog ∧ KeepsMemory s t ∧
      get none (port t n.toNat).rtags b.tag.toNat = (if b.last then none else some { k with got := k.got + 1 }) ∧
      (∀ d x, b.resp = 0 → decodeBeat b.data b.chk = .corrected d x →
        t.mon.eccCnt = satAdd s.mon.eccCnt 1 ∧ t.mon.eccSrc = 0) ∧
      (b.resp ≠ 0 ∨ decodeBeat b.data b.chk = .clean ∨ decodeBeat b.data b.chk = .uncorrectable → t.mon = s.mon)) ∧
  (∀ (s : State) (n : PortNo) (b : RdBeat) (k : RTag), coreOn s = true → (port s n.toNat).en = true →
    rdParityOk b = true → get none (port s n.toNat).rtags b.tag.toNat = some k → k.broken = false → k.orphan = false →
    k.fetch = true → k.stale = false → (chan s k.ch).st = .waiting → (chan s k.ch).waitOn = .fetch → (chan s k.ch).held = none →
    b.last = (k.got + 1 == k.len) →
    (b.resp = 0 → decodeBeat b.data b.chk = .clean →
      ∃ t, exec (.readResponseBeat n b) s = .next t ∧ KeepsOthers k.ch s t ∧ KeepsMemory s t ∧
        chan t k.ch = { chan s k.ch with
          st := .ready, waitOn := .none, waitArg := 0, since := s.clk.now, fetchIn := none
          buf := some { base := { sys := true, addr := k.addr }, words := groupWords b.data } }) ∧
    (∀ d x, b.resp = 0 → decodeBeat b.data b.chk = .corrected d x →
      ∃ t, exec (.readResponseBeat n b) s = .next t ∧ KeepsOthers k.ch s t ∧ KeepsMemory s t ∧
        chan t k.ch = { chan s k.ch with fetchIn := some (s.clk.now, k.addr, d) } ∧
        t.mon.eccCnt = satAdd s.mon.eccCnt 1 ∧ t.mon.eccSrc = 0) ∧
    (1 ≤ b.resp.toNat → b.resp.toNat ≤ 4 → unmoved s k.ch = true →
      ∃ t, exec (.readResponseBeat n b) s = .next t ∧ KeepsOthers k.ch s t ∧ KeepsMemory s t ∧ (chan t k.ch).haltPend = true ∧
        (chan t k.ch).pc = (chan s k.ch).pc ∧
        (chan t k.ch).held = some { cause := respCause b.resp, addr := k.addr, dir := dirFetch, port := n,
                                    detail := respDetail b.resp b.detail, resp := b.resp, tag := b.tag })) ∧
  (∀ (s : State) (ch at' : Nat) (a : Addr) (d : BitVec 256), Inv s → (chan s ch).st = .waiting → (chan s ch).waitOn = .fetch →
    (chan s ch).held = none → (chan s ch).fetchIn = some (at', a, d) → at' < s.clk.now →
    chan (heldGroups s) ch = { chan s ch with
      st := .ready, waitOn := .none, waitArg := 0, since := s.clk.now, fetchIn := none
      buf := some { base := { sys := true, addr := a }, words := groupWords d } }) ∧
  ∀ (s : State) (n : PortNo) (b : RdBeat), coreOn s = true → (port s n.toNat).en = true → rdParityOk b = false →
    ∃ t, exec (.readResponseBeat n b) s = .next t ∧ t.irq.cause.getLsbD 3 = true ∧ t.chans = s.chans ∧ t.movers = s.movers ∧
      KeepsMemory s t ∧ (∀ j, j ≠ n.toNat → port t j = port s j) ∧
      { port t n.toNat with rtags := [] } = { port s n.toNat with rtags := [] } ∧
      (∀ j, get none (port t n.toNat).rtags j = (get none (port s n.toNat).rtags j).map (fun k => { k with broken := true })) ∧
      (s.flog.entries.length < 64 → ∃ e ∈ t.flog.entries, e.kind = 7 ∧ e.port = n ∧ e.dir = dirRead ∧ e.tag = b.tag ∧
        (∀ k, get none (port s n.toNat).rtags b.tag.toNat = some k → e.detail = 0 ∧ e.ch = BitVec.ofNat 10 k.ch) ∧
        (get none (port s n.toNat).rtags b.tag.toNat = none → e.detail = 1 ∧ e.ch = 0))

/-- WRITE_RESPONSE. An OK response to a presented write frees its tag and changes nothing but the port (02 R46, R49). An error on a write
of the MOVE at which the channel stands, with units still to leave, lowers CH_MOVE_WR to its first element and is held as the
channel's fault (09 R230, R231); one on a write of an earlier instruction is held as LATE, or halts an IDLE or PARKED channel with LATE
at once, and of a HALTED channel it is secondary, but in the ccyc of the halt the first by rank is latched (09 R228, R231, R233). An ECC answer to a poisoned beat of the MOVE makes the burst from that
beat on due to be sent again (06 R176). The response that frees the last tag of a halted instruction applies a pending RESUME or SKIP (09
R234); one that frees the last write tag of a channel WAITING in a FENCE or SIGNAL.F lets it go on, at the end of its own ccyc or in the
next, a SIGNAL.F raising its event (05 R152; 08 R211); one that frees the last tag of an ABORTING channel lets it be IDLE in the next
ccyc (09 R238). A response with bad port parity is dropped: its tag stays, it is logged, and PORT_PARITY is set (02 R62). -/
def Obligations.WriteResponsesFreeTheirTags : Prop :=
  (∀ (s : State) (n : PortNo) (w : WrResp) (k : WTag), coreOn s = true → (port s n.toNat).en = true → wrParityOk w = true →
    get none (port s n.toNat).wtags w.tag.toNat = some k → k.orphan = false → 0 < k.len → k.len ≤ k.sent →
    k.lastAt < s.clk.now → w.beat.toNat < k.len →
    (k.poison = none →
      ((chan s k.ch).st = .running → w.resp = 0 → w.beat = 0 →
        ∃ t, exec (.writeResponse n w) s = .next t ∧ get none (port t n.toNat).wtags w.tag.toNat = none ∧
          (∀ j, j ≠ w.tag.toNat → get none (port t n.toNat).wtags j = get none (port s n.toNat).wtags j) ∧
          (port t n.toNat).freedW.getLsbD w.tag.toNat = true ∧ OnlyPort n.toNat s t) ∧
      (1 ≤ w.resp.toNat → w.resp.toNat ≤ 4 → unmoved s k.ch = true → (chan s k.ch).held = none →
        ((chan s k.ch).st = .running → k.cur = true → k.puti = false → (chan s k.ch).inMove = true →
          (∀ r, (chan s k.ch).run = some r → allDone r = false) →
          ∃ t, exec (.writeResponse n w) s = .next t ∧ get none (port t n.toNat).wtags w.tag.toNat = none ∧
            (chan t k.ch).haltPend = true ∧
            (chan t k.ch).moveWr = BitVec.ofNat 21 (min (chan s k.ch).moveWr.toNat (firstElem k w.beat.toNat)) ∧
            (chan t k.ch).held = some (writeFault n.toNat k w false) ∧ (chan t k.ch).a = (chan s k.ch).a ∧
            (chan t k.ch).pc = (chan s k.ch).pc ∧ KeepsOthers k.ch s t ∧ KeepsMemory s t) ∧
        ((chan s k.ch).st = .running → k.cur = false → canRetire s k.ch = false →
          ∃ t, exec (.writeResponse n w) s = .next t ∧ (chan t k.ch).held = some (writeFault n.toNat k w true) ∧
            (writeFault n.toNat k w true).cause = .late ∧ (atMover s (chan s k.ch) = false → (chan t k.ch).haltPend = true) ∧
            (chan t k.ch).moveWr = (chan s k.ch).moveWr ∧ (chan t k.ch).a = (chan s k.ch).a ∧
            (chan t k.ch).pc = (chan s k.ch).pc ∧ KeepsOthers k.ch s t ∧ KeepsMemory s t) ∧
        (((chan s k.ch).st = .idle ∧ (chan s k.ch).stopAt ≠ some s.clk.now) ∨ (chan s k.ch).st = .parked →
          ∃ t, exec (.writeResponse n w) s = .next t ∧
            HaltedWith k.ch { cause := .late, dir := dirWrite, port := n, detail := respDetail w.resp w.detail }
              (beatAddr k.addr k.size w.beat.toNat) s t) ∧
        ((chan s k.ch).st = .halted → k.cur = false → (chan s k.ch).pendCmd = .none → (chan s k.ch).latched = none →
          ∃ t, exec (.writeResponse n w) s = .next t ∧ KeepsOthers k.ch s t ∧ KeepsMemory s t ∧
            chan t k.ch = { chan s k.ch with logs := (chan s k.ch).logs ++ [recordEntry 2 k.ch (writeFault n.toNat k w true)] }) ∧
        (∀ h, (chan s k.ch).st = .halted → k.cur = false → (chan s k.ch).pendCmd = .none → (chan s k.ch).latched = some h →
          faultRank (writeFault n.toNat k w true) < faultRank h →
          ∃ t, exec (.writeResponse n w) s = .next t ∧ KeepsOthers k.ch s t ∧ KeepsMemory s t ∧ (chan t k.ch).st = .halted ∧
            (chan t k.ch).faultInfo.cause = .late ∧ (chan t k.ch).faultInfo.port = n ∧
            (chan t k.ch).faultInfo.detail = respDetail w.resp w.detail ∧ (chan t k.ch).faultInfo.dir = dirWrite ∧
            (chan t k.ch).faultAddr = beatAddr k.addr k.size w.beat.toNat))) ∧
    (∀ j r, k.poison = some j → k.cur = true → k.badSrc = false → (chan s k.ch).st = .running → (chan s k.ch).run = some r →
      w.resp = 4 → j ≤ w.beat.toNat →
      ∃ t, exec (.writeResponse n w) s = .next t ∧ KeepsOthers k.ch s t ∧ KeepsMemory s t ∧
        chan t k.ch = { chan s k.ch with run := some { r with resend := r.resend ++ [(k.unit + j, k.len - j, s.clk.now + 1)] } }) ∧
    (k.poison = none → w.resp = 0 → w.beat = 0 → (chan s k.ch).st = .halted →
      instrTags (updPort n.toNat (fun p => { p with
        wtags := put none p.wtags w.tag.toNat none, freedW := setBit p.freedW w.tag.toNat true }) s) k.ch = false →
      ((chan s k.ch).pendCmd = .resume →
        ∃ t, exec (.writeResponse n w) s = .next t ∧ (chan t k.ch).st = .ready ∧ (chan t k.ch).faultInfo.valid = false ∧
          (chan t k.ch).pendCmd = .none ∧ (chan t k.ch).pc = (chan s k.ch).pc ∧ (chan t k.ch).a = (chan s k.ch).a ∧
          KeepsOthers k.ch s t ∧ KeepsMemory s t) ∧
      (∀ i, (chan s k.ch).pendCmd = .skip → knownWord s (chan s k.ch) = some i →
        ∃ t, exec (.writeResponse n w) s = .next t ∧ (chan t k.ch).st = .ready ∧ (chan t k.ch).faultInfo.valid = false ∧
          (chan t k.ch).pendCmd = .none ∧ (chan t k.ch).pc = (chan s k.ch).pc.plus (skipBytes (chan s k.ch) i) ∧
          KeepsOthers k.ch s t ∧ KeepsMemory s t))) ∧
  (∀ (s : State) (ch : Nat), Inv s → coreOn s = true → (chan s ch).st = .waiting → (chan s ch).waitOn = .fenced →
    (chan s ch).held = none →
    ((chan s ch).met = true → (chan s ch).waitAt ≠ some s.clk.now →
      (chan (endCcyc s) ch).st = .ready ∧ (chan (endCcyc s) ch).pc = (chan s ch).pc.plus 8 ∧
      ∀ w e, obtain s (chan s ch) = .word w → decodeYabex w = .ok (.signalF e) → e.toNat ∈ (endCcyc s).ev.raised) ∧
    ((chan s ch).waitAt = some s.clk.now → wtagCount s ch = 0 →
      (chan (endCcyc s) ch).pc = (chan s ch).pc.plus 8 ∧ (chan (endCcyc s) ch).waitOn ≠ .fenced ∧
      ∀ w e, obtain s (chan s ch) = .word w → decodeYabex w = .ok (.signalF e) → e.toNat ∈ (endCcyc s).ev.raised)) ∧
  (∀ (s : State) (ch : Nat), Inv s → coreOn s = true → s.cfg.offered = [] → s.cmd.job = .none → s.pd.pin = s.pd.req →
    ((chan (ccycEnd s) ch).st = .waiting → (chan (ccycEnd s) ch).waitOn = .fenced → wtagCount (ccycEnd s) ch = 0 →
      (chan (tick s) ch).met = true) ∧
    ((chan (ccycEnd s) ch).st = .aborting → (chan (ccycEnd s) ch).startNext = false → noTags (ccycEnd s) ch = true →
      (chan (tick s) ch).st = .idle)) ∧
  ∀ (s : State) (n : PortNo) (w : WrResp), coreOn s = true → (port s n.toNat).en = true → wrParityOk w = false →
    ∃ t, exec (.writeResponse n w) s = .next t ∧ t.irq.cause.getLsbD 3 = true ∧ t.chans = s.chans ∧ t.ports = s.ports ∧
      t.movers = s.movers ∧ KeepsMemory s t ∧
      (s.flog.entries.length < 64 → ∃ e ∈ t.flog.entries, e.kind = 7 ∧ e.port = n ∧ e.dir = dirWrite ∧ e.tag = w.tag)

/-- READ_RESPONSE_BEAT and WRITE_RESPONSE. A response whose tag is not outstanding in its direction on its port is dropped: a fault-log
entry names the port, the direction and the tag (it is lost where the log is full, 09 R243), PORT_UNKNOWN_TAG is set, and no channel
and no port is affected (02 R61). -/
def Obligations.UnknownTagsAreDropped : Prop :=
  ∀ (s : State) (n : PortNo), coreOn s = true → (port s n.toNat).en = true →
    (∀ b : RdBeat, rdParityOk b = true → get none (port s n.toNat).rtags b.tag.toNat = none →
      ∃ t, exec (.readResponseBeat n b) s = .next t ∧ t.irq.cause.getLsbD 2 = true ∧ t.chans = s.chans ∧
        t.ports = s.ports ∧ t.movers = s.movers ∧ KeepsMemory s t ∧
        (s.flog.entries.length < 64 → t.flog.entries.length = s.flog.entries.length + 1 ∧
          ∃ e ∈ t.flog.entries, e.kind = 6 ∧ e.port = n ∧ e.dir = dirRead ∧ e.tag = b.tag)) ∧
    (∀ w : WrResp, wrParityOk w = true → get none (port s n.toNat).wtags w.tag.toNat = none →
      ∃ t, exec (.writeResponse n w) s = .next t ∧ t.irq.cause.getLsbD 2 = true ∧ t.chans = s.chans ∧
        t.ports = s.ports ∧ t.movers = s.movers ∧ KeepsMemory s t ∧
        (s.flog.entries.length < 64 → t.flog.entries.length = s.flog.entries.length + 1 ∧
          ∃ e ∈ t.flog.entries, e.kind = 6 ∧ e.port = n ∧ e.dir = dirWrite ∧ e.tag = w.tag))

/-- CREDIT_RETURN. A credit pulse adds one to its counter, from the next port cycle on; one that finds the counter, after what the
present cycle uses, at its maximum (32 requests, 64 write-data beats) is dropped, with a fault-log entry naming the port and the
counter and PORT_CREDIT_OVF set, and traffic goes on with the counter as it is (02 R56 to R58). -/
def Obligations.CreditsStopAtTheirMaximum : Prop :=
  ∀ (s : State) (n : PortNo) (wd : Bool), coreOn s = true → (port s n.toNat).en = true →
    ((if wd then nextWd (port s n.toNat) < 64 else nextRq (port s n.toNat) < 32) →
      ∃ t, exec (.creditReturn n wd) s = .next t ∧ OnlyPort n.toNat s t ∧
        port t n.toNat = (if wd then { port s n.toNat with wdRet := (port s n.toNat).wdRet + 1 }
          else { port s n.toNat with rqRet := (port s n.toNat).rqRet + 1 }) ∧
        (wd = true → (port s n.toNat).wdUsed ≤ (port s n.toNat).wdCred + (port s n.toNat).wdRet →
          (newCredits (port t n.toNat)).wdCred = (newCredits (port s n.toNat)).wdCred + 1) ∧
        (wd = false → (port s n.toNat).rqUsed ≤ (port s n.toNat).rqCred + (port s n.toNat).rqRet →
          (newCredits (port t n.toNat)).rqCred = (newCredits (port s n.toNat)).rqCred + 1)) ∧
    ((if wd then 64 ≤ nextWd (port s n.toNat) else 32 ≤ nextRq (port s n.toNat)) →
      ∃ t, exec (.creditReturn n wd) s = .next t ∧ t.ports = s.ports ∧ t.chans = s.chans ∧
        t.irq.cause.getLsbD 1 = true ∧ KeepsMemory s t ∧
        (s.flog.entries.length < 64 →
          ∃ e ∈ t.flog.entries, e.kind = 5 ∧ e.port = n ∧ e.detail = (if wd then 1 else 0)))

/-! ### Lines and events (03) -/

/-- REQ_EDGE gives a line its level, from the present ccyc on: the model's choice (log entry 10). The detector of an owned line sees an edge where the sampled level, after polarity, goes from
inactive to active: that of the line itself, or, of an asynchronous line, that of two ccyc before (03 R66 to R69). The edge is handled
in the next ccyc: where the owner waits on the line it completes the WAIT and the counter stays; otherwise it adds one to the counter;
at 15 it sets OVF and REQ_OVF, unless a WAIT of that ccyc takes one from the counter, whose place it takes (03 R70, R72, R73). The last
part says the same of a step: of an edge detected in the present ccyc, which the passage of the ccyc hands to the next one, and of what
that one makes of it by its end; a host read of the next ccyc finds the counter one higher (03 R70). -/
def Obligations.EdgesAreCounted : Prop :=
  (∀ (s : State) (n : LineNo) (level : Bool),
    ∃ t, exec (.reqEdge n level) s = .next t ∧ OnlyLine n.toNat s t ∧ line t n.toNat = { line s n.toNat with pin := level }) ∧
  (∀ (s : State) (n : Nat),
    (lineOwner s n = none → edgeSeen s n = false) ∧
    (∀ o, lineOwner s n = some o → lineLoads s (get 0 s.routes.req n) (line s n) = false →
      (lineAsync (get 0 s.routes.req n) = false →
        edgeSeen s n = (xor (line s n).pin (linePol (get 0 s.routes.req n)) && !(line s n).det)) ∧
      (lineAsync (get 0 s.routes.req n) = true →
        edgeSeen s n = (xor (line s n).s2 (linePol (get 0 s.routes.req n)) && !(line s n).det))) ∧
    ∀ w l, (clockLine w (clockLine w l)).s2 = l.pin ∧ (clockLine w l).det = lineLevel w l ∧ (clockLine w l).cnt = l.cnt ∧
      (clockLine w l).ovf = l.ovf) ∧
  (∀ (s : State) (n o : Nat), lineOwner s n = some o →
    ((chan s o).st = .waiting → (chan s o).waitOn = .line → (chan s o).waitArg.toNat = n → (chan s o).held = none →
      line (endWake n (handleEdge s n)) n = { line s n with use := .wake } ∧
      (chan (endWake n (handleEdge s n)) o).st = .ready ∧
      (chan (endWake n (handleEdge s n)) o).pc = (chan s o).pc.plus 8 ∧ KeepsOthers o s (endWake n (handleEdge s n)) ∧
      KeepsMemory s (endWake n (handleEdge s n))) ∧
    ((chan s o).st ≠ .waiting ∨ (chan s o).waitOn ≠ .line ∨ (chan s o).waitArg.toNat ≠ n ∨ (chan s o).held ≠ none →
      OnlyLine n s (handleEdge s n) ∧
      ((line s n).cnt ≠ 15 → line (handleEdge s n) n = { line s n with cnt := (line s n).cnt + 1, use := .counted }) ∧
      ((line s n).cnt = 15 → (line s n).ovf = false →
        (line (handleEdge s n) n).cnt = 15 ∧ (line (handleEdge s n) n).ovf = false ∧
        (line (endOver n (handleEdge s n)) n).ovf = true ∧
        (endOver n (handleEdge s n)).irq.cause.getLsbD 24 = true ∧ (endOver n (handleEdge s n)).chans = s.chans ∧
        (takePulse (line (handleEdge s n) n)).cnt = 15 ∧
        endOver n (setLine n (takePulse (line (handleEdge s n) n)) (handleEdge s n)) =
          setLine n (takePulse (line (handleEdge s n) n)) (handleEdge s n)))) ∧
  ∀ (s : State) (n o : Nat), Inv s → canon ({} : ReqLine) s.lines = true → coreOn s = true → s.cfg.offered = [] → s.cmd.job = .none →
    edgeSeen s n = true → lineOwner s n = some o →
    ((chan (ccycEnd s) o).st = .waiting → (chan (ccycEnd s) o).waitOn = .line → (chan (ccycEnd s) o).waitArg.toNat = n →
      (chan (ccycEnd s) o).held = none →
      line (tick s) n = { line (ccycEnd s) n with use := .wake } ∧
      ((chan (tick s) o).st = .waiting → (chan (tick s) o).waitOn = .line → (chan (tick s) o).waitArg.toNat = n →
        (chan (tick s) o).held = none →
        (chan (endCcyc (tick s)) o).st = .ready ∧ (chan (endCcyc (tick s)) o).pc = (chan (tick s) o).pc.plus 8 ∧
        (line (endCcyc (tick s)) n).cnt = (line (ccycEnd s) n).cnt)) ∧
    ((chan (ccycEnd s) o).st ≠ .waiting ∨ (chan (ccycEnd s) o).waitOn ≠ .line ∨ (chan (ccycEnd s) o).waitArg.toNat ≠ n ∨
        (chan (ccycEnd s) o).held ≠ none →
      ((line (ccycEnd s) n).cnt ≠ 15 →
        line (tick s) n = { line (ccycEnd s) n with cnt := (line (ccycEnd s) n).cnt + 1, use := .counted } ∧
        (cfgEdge (tick s) = true → (line (atStart (tick s)) n).cnt = (line (ccycEnd s) n).cnt + 1)) ∧
      ((line (ccycEnd s) n).cnt = 15 → (line (ccycEnd s) n).ovf = false →
        line (tick s) n = { line (ccycEnd s) n with use := .over } ∧ (line (endCcyc (tick s)) n).cnt = 15 ∧
        (line (endCcyc (tick s)) n).ovf = true ∧ (endCcyc (tick s)).irq.cause.getLsbD 24 = true))

/-- EVT_SW raises its event in the ccyc in which the port serves the write. A logical event raised by two or more sources in the same
ccyc is raised once (03 R77): raising it again changes nothing, whether another EVT_SW or a SIGNAL does it. -/
def Obligations.EventsRaisedTwiceAreRaisedOnce : Prop :=
  (∀ (e : Event) (s : State), raiseEvent e (raiseEvent e s) = raiseEvent e s ∧
    ∀ k, k ∈ (raiseEvent e s).ev.raised ↔ k = e.toNat ∨ k ∈ s.ev.raised) ∧
  (∀ (e : Event) (s : State), hostTurn s = true →
    ∃ t, exec (.evtSw e) s = .next t ∧ t.ev.raised = insertNat e.toNat s.ev.raised ∧
      { t with ev := { t.ev with raised := s.ev.raised, direct := s.ev.direct } } = answer 0 false s ∧ effEvtSw e t = t) ∧
  ∀ (e : Event) (s t : State) (ch : Chan), hostTurn s = true → exec (.evtSw e) s = .next t →
    atInstr t ch.toNat (.signal e) = true → ∃ u, exec (.signal ch) t = .next u ∧ u.ev.raised = t.ev.raised

/-- The events raised in one ccyc are delivered in the next (03 R78): in that ccyc every channel WAITING on one becomes READY when the
ccyc ends, unless it is about to halt or its deadline has come (04 R99), and an event routed to the guyline joins its mask (03 R80). The
pulse of a routed event, and of a global event that arrives and that the input map routes, takes its place on its EVT_OUT line in the ccyc
of the raise or of the arrival, at its end: the line is high in the next ccyc if it is low in this one and has nothing queued; else the
pulse is queued, up to 3; else it is lost, with the line's EVT_OVF bit and the cause (03 R79, R80). EVT_PULSE_OUT: a pulse that an EVT_OUT
line has queued goes high once the line has been low for a ccyc; the others stay queued, and nothing but that line changes. -/
def Obligations.EventsReachChannelsAndLines : Prop :=
  (∀ s : State, (deliverEvents s).ev.delivered = s.ev.raised ∧ (deliverEvents s).ev.raised = []) ∧
  (∀ s : State, coreOn s = true → s.cfg.offered = [] → s.cmd.job = .none →
    (tick s).ev.delivered = (endCcyc s).ev.raised ∧ ∀ e ∈ s.ev.raised, e ∈ (endCcyc s).ev.raised) ∧
  (∀ s : State, Inv s → coreOn s = true →
    ∀ ch, (chan s ch).st = .waiting → (chan s ch).waitOn = .event → (chan s ch).waitArg.toNat ∈ s.ev.delivered →
      (chan s ch).held = none → deadlineDue s (chan s ch) = false → (chan (endCcyc s) ch).st = .ready) ∧
  (∀ (s : State) (m : LineNo) (e : Nat),
    ((get {} s.ev.lines m.toNat).queue = [] → (∀ k, (get {} s.ev.lines m.toNat).last = some k → k < s.clk.now) →
      get {} (joinLine m.toNat e s).ev.lines m.toNat = { last := some (s.clk.now + 1), queue := [] } ∧
      (joinLine m.toNat e s).ev.ovf = s.ev.ovf ∧ (joinLine m.toNat e s).irq = s.irq) ∧
    ((get {} s.ev.lines m.toNat).queue.length < 3 →
      ((get {} s.ev.lines m.toNat).queue ≠ [] ∨ ∃ k, (get {} s.ev.lines m.toNat).last = some k ∧ s.clk.now ≤ k) →
      get {} (joinLine m.toNat e s).ev.lines m.toNat =
        { last := (get {} s.ev.lines m.toNat).last, queue := (get {} s.ev.lines m.toNat).queue ++ [e] } ∧
      (joinLine m.toNat e s).ev.ovf = s.ev.ovf ∧ (joinLine m.toNat e s).irq = s.irq) ∧
    (3 ≤ (get {} s.ev.lines m.toNat).queue.length →
      (joinLine m.toNat e s).ev.lines = s.ev.lines ∧ (joinLine m.toNat e s).ev.ovf.getLsbD m.toNat = true ∧
      (joinLine m.toNat e s).irq.cause.getLsbD 25 = true) ∧
    ∀ k, k ≠ m.toNat → get {} (joinLine m.toNat e s).ev.lines k = get {} s.ev.lines k) ∧
  (∀ (s : State) (e : Nat), s.ev.raised = [e] → (deliverEvents s).ev.lines = s.ev.lines ∧
    (deliverEvents s).gl.mask = (if bit (get (0 : Word) (routesNow s).evt e) 13 then
      setBit s.gl.mask (fld (get (0 : Word) (routesNow s).evt e) 25 6 : BitVec 6).toNat true else s.gl.mask)) ∧
  (∀ (s : State) (m : LineNo), coreOn s = true → s.com.armed = false → (get {} s.ev.lines m.toNat).queue = [] →
    (∀ k, (get {} s.ev.lines m.toNat).last = some k → k < s.clk.now) →
    ((∃ e, (endChans s).ev.raised = [e] ∧ (endChans s).ev.gdelivered = 0 ∧ bit (get (0 : Word) s.routes.evt e) 12 = true ∧
        fld (get (0 : Word) s.routes.evt e) 16 9 = m) ∨
      ∃ g : Nat, g < 64 ∧ (endChans s).ev.raised = [] ∧ (∀ k : Nat, (endChans s).ev.gdelivered.getLsbD k = decide (k = g)) ∧
        bit (get (0 : Word) s.routes.glob g) 31 = true ∧ fld (get (0 : Word) s.routes.glob g) 16 9 = m) →
    get {} (endCcyc s).ev.lines m.toNat = { last := some (s.clk.now + 1), queue := [] } ∧
    (s.cfg.offered = [] → s.cmd.job = .none →
      get {} (tick s).ev.lines m.toNat = { last := some (s.clk.now + 1), queue := [] })) ∧
  ∀ (s : State) (m : LineNo) (e : Nat) (rest : List Nat), coreOn s = true → (get {} s.ev.lines m.toNat).queue = e :: rest →
    (∀ k, (get {} s.ev.lines m.toNat).last = some k → k + 2 ≤ s.clk.now) →
    ∃ t, exec (.evtPulseOut m) s = .next t ∧
      get {} t.ev.lines m.toNat = { last := some s.clk.now, queue := rest } ∧
      (∀ k, k ≠ m.toNat → get {} t.ev.lines k = get {} s.ev.lines k) ∧
      { t with ev := { t.ev with lines := s.ev.lines } } = s

/-! ### The configuration port (00, 04, 15) -/

/-- CAPTURE_READ of the identity registers. They are constant: a read of IP_ID or GENNAL_ID returns its value in every state in which
the port answers, SAFE and every power state among them, and changes nothing but the port (00 R7, R5, R6). -/
def Obligations.IdentityRegistersAreConstant : Prop :=
  ∀ (s : State) (a : BitVec 18) (d : Word), a = 0 ∨ a = 1 → s.pwr.st ≠ .off → portReady s = true →
    ∃ t, exec (.captureRead a ⟨d, accessParity false a d⟩) s = .next t ∧
      t.cfg.ans = some { due := s.clk.now + 4, data := if a = 0 then 0x5C400102 else 0x00000120, err := false } ∧
      { t with cfg := s.cfg } = s

/-- The port serves one access at a time: a host access that comes while it cannot waits behind those offered before, and is performed
as the row when its turn comes; with AO off the outputs are 0. An answer is driven for one CFG_CLK cycle, the next after its access
(15 R374, R377, R378). CAPTURE_READ answers the register's content as it stood when the CFG_CLK cycle began, or 0 where its domain does
not answer, and has no effect but the answer and the capture of its group; what it reads from is kept at each edge of CFG_CLK, once the
edges of the ccyc before are counted and the credits are those of the port cycle (03 R70; 15 R382); an access with bad parity is answered with CFG_ERR and read data 0 and is not performed (15 R374 to R379). REGISTER_WRITE of a word of CMD_BUF
stores its four bytes, least significant first, and leaves every other byte and everything else but the port as it was (13 Table 13.5;
00 R10); where a command in progress reads or writes CMD_BUF, the word is stored too, and that command ends with its result lost (13 R335;
log entry 45). Of the other registers: a write of IRQ_CAUSE clears the causes that it writes with 1, but for one that the engine sets in
the same ccyc (01 R21; 03 Table 3.11); IRQ_MASK takes the word (03 Table 3.12); a route or peg shadow, COMMIT_SEL and the writable
fields of CH_CFG take theirs (15 R384; 07 Table 7.7; 11 Table 11.7; 04 Table 4.6); each write changes nothing else but the port. -/
def Obligations.ThePortReadsAndWrites : Prop :=
  (∀ (i : Instr) (s : State), isHost i = true →
    (s.pwr.st = .off → exec i s = .next (portOff s)) ∧
    (s.pwr.st ≠ .off → portReady s = false →
      exec i s = .next { s with cfg := { s.cfg with offered := s.cfg.offered ++ [i] } }) ∧
    (s.pwr.st ≠ .off → portReady s = true → exec i s = .next (runHost i (answer 0 false s))) ∧
    ∀ rest, s.cfg.offered = i :: rest → s.clk.now % 4 = 0 → s.cfg.freeAt ≤ s.clk.now → s.gate.held = none →
      servePort s = runHost i (answer 0 false { s with cfg := { s.cfg with offered := rest } })) ∧
  (∀ (s : State) (a : HostAnswer), s.cfg.ans = some a →
    (s.clk.now = a.due → drivePort s =
      { s with cfg := { s.cfg with ack := true, rdata := a.data, err := a.err, rpar := oddParity a.data } }) ∧
    (a.due + 4 ≤ s.clk.now → drivePort s = { s with cfg := { s.cfg with ack := false, ans := none } })) ∧
  (∀ (s : State) (a : BitVec 18) (d : Word) (par : BitVec 2), s.pwr.st ≠ .off → portReady s = true →
    (par = accessParity false a d → a.toNat < 0x30000 →
      ∃ t, exec (.captureRead a ⟨d, par⟩) s = .next t ∧ { t with cfg := s.cfg } = s ∧
        t.cfg.ans = some { due := s.clk.now + 4, err := false,
                           data := if heldInAo a.toNat = true ∨ coreAnswers (atStart s) = true then readReg (atStart s) a.toNat
                             else 0 } ∧
        t.cfg.offered = [] ∧ (a = 0x1C00 → t.cfg.capRidge = (fld s.start.clk.ridge 32 32 : BitVec 32))) ∧
    (par ≠ accessParity false a d → exec (.captureRead a ⟨d, par⟩) s = .next (answer 0 true s)) ∧
    (par ≠ accessParity true a d → exec (.registerWrite a d par) s = .next (answer 0 true s))) ∧
  (∀ s : State, s.cfg.offered = [] → s.cmd.job = .none →
    (tick s).start = (if cfgEdge (nextCcyc (ccycEnd s)) then
      (coreStart (edgesOf s) (aoEdge (nextCcyc (ccycEnd s)))).toBlock else s.start)) ∧
  (∀ (s : State) (a : BitVec 18) (v : Word), hostTurn s = true →
    (∀ i : Nat, i < 2 → a.toNat = 0x40 + i →
      ∃ t, exec (.registerWrite a v (accessParity true a v)) s = .next t ∧
        { t with irq := { t.irq with cause := s.irq.cause }, cfg := s.cfg } = s ∧
        ∀ k : Nat, k < 64 → t.irq.cause.getLsbD k = (s.irq.cause.getLsbD k &&
          !(k / 32 == i && v.getLsbD (k % 32) && !s.irq.fresh.contains (32 * a.toNat + k % 32)))) ∧
    (∀ i : Nat, i < 2 → a.toNat = 0x42 + i →
      ∃ t, exec (.registerWrite a v (accessParity true a v)) s = .next t ∧
        { t with irq := { t.irq with mask := s.irq.mask }, cfg := s.cfg } = s ∧
        ∀ j : Nat, j < 2 → t.irq.mask.extractLsb' (32 * j) 32 = (if j = i then v else s.irq.mask.extractLsb' (32 * j) 32)) ∧
    (0x4000 ≤ a.toNat → a.toNat < 0x4200 →
      ∃ t, exec (.registerWrite a v (accessParity true a v)) s = .next t ∧
        { t with shadow := { t.shadow with req := s.shadow.req }, shadowOld := s.shadowOld, cfg := s.cfg } = s ∧
        ∀ k, get (0 : Word) t.shadow.req k = (if k = a.toNat - 0x4000 then v &&& reqMask else get 0 s.shadow.req k)) ∧
    (0x5000 ≤ a.toNat → a.toNat < 0x6000 →
      ∃ t, exec (.registerWrite a v (accessParity true a v)) s = .next t ∧
        { t with shadow := { t.shadow with evt := s.shadow.evt }, shadowOld := s.shadowOld, cfg := s.cfg } = s ∧
        ∀ k, get (0 : Word) t.shadow.evt k = (if k = a.toNat - 0x5000 then v &&& evtMask else get 0 s.shadow.evt k)) ∧
    (∀ n k : Nat, n < 8 → k < 64 → a.toNat = 0x1040 + 0x100 * n + k →
      ∃ t, exec (.registerWrite a v (accessParity true a v)) s = .next t ∧ { t with pegSh := s.pegSh, cfg := s.cfg } = s ∧
        (∀ j, get 0 t.pegSh j = (if j = pegKey n k then pegWrite (get 0 s.pegSh j) v else get 0 s.pegSh j)) ∧
        ((fld v 14 2 : BitVec 2) = 1 → get 0 t.pegSh (pegKey n k) = (0x4000 : BitVec 16) ||| (fld v 0 10 : BitVec 10).setWidth 16)) ∧
    (a.toNat = 0x1C28 →
      ∃ t, exec (.registerWrite a v (accessParity true a v)) s = .next t ∧ t.com.sel = fld v 0 10 ∧
        { t with com := { t.com with sel := s.com.sel }, cfg := s.cfg } = s) ∧
    (∀ ch : Chan, a.toNat = 0x20002 + 32 * ch.toNat →
      ∃ t, exec (.registerWrite a v (accessParity true a v)) s = .next t ∧ KeepsOthers ch.toNat s t ∧
        { t with chans := s.chans, cfg := s.cfg } = s ∧
        chan t ch.toNat = (if (chan s ch.toNat).assigned then
          { chan s ch.toNat with autoResume := bit v 15, pin := bit v 14, prioSh := fld v 2 3 } else chan s ch.toNat))) ∧
  ∀ (s : State) (a : BitVec 18) (v : Word), hostTurn s = true → 0x3000 ≤ a.toNat → a.toNat < 0x3400 →
    ∃ t, exec (.registerWrite a v (accessParity true a v)) s = .next t ∧
      (∀ k, k < 4 → readByte t.cmd.buf (4 * (a.toNat - 0x3000) + k) = v.extractLsb' (8 * k) 8) ∧
      (usesBuf s.cmd.job = false →
        (∀ b, b < 4 * (a.toNat - 0x3000) ∨ 4 * (a.toNat - 0x3000) + 4 ≤ b → readByte t.cmd.buf b = readByte s.cmd.buf b) ∧
        { t with cfg := s.cfg, cmd := s.cmd } = s ∧ { t.cmd with buf := s.cmd.buf } = s.cmd) ∧
      (usesBuf s.cmd.job = true → t.cmd.busy = false ∧ t.cmd.job = .none ∧ t.cmd.err = !t.cmd.done)

/-- REGISTER_WRITE of a channel's registers. Each of A0 to A3, L0 to L3 and CH_ENTRY accepts a host write only while its channel is
IDLE, HALTED or PARKED, or leaves HALTED or PARKED in the same ccyc (01 R21); in any other state the write is dropped and the value in
force stays (04 R92). -/
def Obligations.HostWritesNeedAStoppedChannel : Prop :=
  ∀ (s : State) (ch : Chan) (o : Nat) (a : BitVec 18) (v : Word), hostTurn s = true → a.toNat = 0x20000 + 32 * ch.toNat + o →
    (o = 4 ∨ o = 5 ∨ (8 ≤ o ∧ o < 20)) →
    ((chan s ch.toNat).st ≠ .idle → (chan s ch.toNat).st ≠ .halted → (chan s ch.toNat).st ≠ .parked →
      (chan s ch.toNat).leftAt ≠ some s.clk.now →
      ∃ t, exec (.registerWrite a v (accessParity true a v)) s = .next t ∧ { t with cfg := s.cfg } = s) ∧
    ((chan s ch.toNat).st = .idle ∨ (chan s ch.toNat).st = .halted ∨ (chan s ch.toNat).st = .parked ∨
        (chan s ch.toNat).leftAt = some s.clk.now →
      ∃ t, exec (.registerWrite a v (accessParity true a v)) s = .next t ∧ KeepsOthers ch.toNat s t ∧
        { t with cfg := s.cfg, chans := s.chans } = s ∧
        (∀ k : Nat, k < 4 →
          (reg4 (chan t ch.toNat).l k = if o = 16 + k then v else reg4 (chan s ch.toNat).l k) ∧
          ((reg4 (chan t ch.toNat).a k).extractLsb' 0 32 =
            if o = 8 + 2 * k then v else (reg4 (chan s ch.toNat).a k).extractLsb' 0 32) ∧
          ((reg4 (chan t ch.toNat).a k).extractLsb' 32 16 =
            if o = 9 + 2 * k then v.extractLsb' 0 16 else (reg4 (chan s ch.toNat).a k).extractLsb' 32 16)) ∧
        (chan t ch.toNat).entry = (if (chan s ch.toNat).assigned = true ∧ (o = 4 ∨ o = 5) then
          entryWrite s (chan s ch.toNat) (o == 5) v else (chan s ch.toNat).entry))

/-! ### The fault log (09) -/

/-- Writing an entry (09 R243): the entries written in earlier ccyc keep their places; a log of fewer than 64 gains one entry, in the
order of KIND, CH, PORT and TAG among those of its ccyc; of a full one
one of the entries of its ccyc, or the new one, is lost (which one: log entry 25, DEDUCED),
LOST counts it up to its end, unless the host writes LOST in the ccyc (01 R21), and FAULT_LOG_FULL is set. FLOG_POP frees the oldest
entry, and nothing on an empty log; with POP 0 it only is answered. -/
def Obligations.TheFaultLogNeverOverwrites : Prop :=
  (∀ (e : LogEntry) (s : State), s.flog.fresh ≤ s.flog.entries.length →
    (s.flog.entries.length < 64 →
      (logFault e s).flog.entries.length = s.flog.entries.length + 1 ∧
      (logFault e s).flog.entries.take (s.flog.entries.length - s.flog.fresh) =
        s.flog.entries.take (s.flog.entries.length - s.flog.fresh) ∧
      ((s.flog.entries.drop (s.flog.entries.length - s.flog.fresh)).Pairwise (fun a b => logBefore b a = false) →
        ((logFault e s).flog.entries.drop (s.flog.entries.length - s.flog.fresh)).Pairwise
          (fun a b => logBefore b a = false))) ∧
    (s.flog.entries.length = 64 →
      (logFault e s).flog.entries.length = 64 ∧
      (logFault e s).flog.entries.take (64 - s.flog.fresh) = s.flog.entries.take (64 - s.flog.fresh) ∧
      (s.flog.fresh = 0 → (logFault e s).flog.entries = s.flog.entries) ∧ (logFault e s).irq.cause.getLsbD 7 = true ∧
      (hostWon 0x100 s = false → (logFault e s).flog.lost.toNat = min 255 (s.flog.lost.toNat + 1)) ∧
      (hostWon 0x100 s = true → (logFault e s).flog.lost = s.flog.lost))) ∧
  ∀ s : State, s.pwr.st ≠ .off → portReady s = true →
    ∃ t, exec (.flogPop true) s = .next t ∧ t.flog.entries = s.flog.entries.tail ∧
      t.flog.head = (if s.flog.entries = [] then s.flog.head else s.flog.head + 1) ∧ t.flog.lost = s.flog.lost ∧
      { t with flog := s.flog, cfg := s.cfg } = s ∧ exec (.flogPop false) s = .next (answer 0 false s)

/-! ### Peg commits (07) -/

/-- PEG_COMMIT with something to commit makes a commit pending at the commit wrap, the first multiple of 128 at least 4 core cycles on,
with at least the ports and the PRIO it names; naming nothing it is only answered. PEG_COMMIT_WRAP: at its wrap a commit makes the pegs
taken for each port it names the active ones and leaves the other ports' pegs; with PRIO the priorities taken come into force, and
without it they stay (07 R202). A PEG_UPDATE in progress completes at its own wrap, with CODE 0 and CFG_EPOCH one higher, and not before
(13 R339, Table 13.8). -/
def Obligations.PegCommits : Prop :=
  (∀ (s : State) (ports : BitVec 8) (prio : Bool), hostTurn s = true →
    (ports ≠ 0 ∨ prio = true →
      ∃ t, exec (.pegCommit ports prio) s = .next t ∧ { t with pegCommits := s.pegCommits } = answer 0 false s ∧
        ∃ c ∈ t.pegCommits, c.wrap % 128 = 0 ∧ coreCycle s + 4 ≤ c.wrap ∧ c.wrap < coreCycle s + 132 ∧
          (∀ n, n < 8 → ports.getLsbD n = true → c.ports.getLsbD n = true) ∧ (prio = true → c.prio = true)) ∧
    (ports = 0 → prio = false → exec (.pegCommit ports prio) s = .next (answer 0 false s))) ∧
  (∀ (s : State) (c : PegCommit) (x : Table (BitVec 16) × Table (BitVec 3)), coreOn s = true → s.pegCommits = [c] →
    c.wrap ≤ coreCycle s → c.taken = some x → s.cmd.job = .none →
    ∃ t, exec .pegCommitWrap s = .next t ∧ t.pegCommits = [] ∧ t.pegSh = s.pegSh ∧
      (∀ n k, n < 8 → k < 64 → get 0 t.pegAct (pegKey n k) =
        if c.ports.getLsbD n then get 0 x.1 (pegKey n k) else get 0 s.pegAct (pegKey n k)) ∧
      (∀ ch, (chan t ch).prio = if c.prio then get 0 x.2 ch else (chan s ch).prio) ∧
      (∀ ch, { chan t ch with prio := 0 } = { chan s ch with prio := 0 }) ∧ KeepsMemory s t) ∧
  ∀ (s : State) (w : Nat) (ports : BitVec 8) (fromBuf : Bool), coreOn s = true → s.cmd.job = .pegUpdate w ports fromBuf →
    s.com.armed = false → (∃ c ∈ s.pegCommits, c.wrap ≤ coreCycle s) →
    (w ≤ coreCycle s →
      ∃ t, exec .pegCommitWrap s = .next t ∧ Ended s.cmd.token s.cmd.opcode 0 {} t ∧ t.cmd.job = .none ∧
        t.dig.epoch = s.dig.epoch + 1 ∧ t.dig.recPend = true ∧ t.irq.cause.getLsbD 52 = true ∧ KeepsMemory s t) ∧
    (coreCycle s < w → ∃ t, exec .pegCommitWrap s = .next t ∧ t.cmd = s.cmd ∧ t.dig = s.dig ∧ KeepsMemory s t)

/-! ### Power, wake and reset (14) -/

/-- The way into a low-power state, and the call out of it. PWR_TARGET_LOW, a write of a low-power state to TARGET, moves RUN to
ENTERING and is noted there; in RETAIN a write of OFF goes on to OFF_RDY; a command in progress in RUN ends with its result lost (13
R335; log entry 45); otherwise nothing but the power registers and the port changes. PWR_TARGET_RUN returns ENTERING to RUN, and in
DOZE it begins the wake, as WAKE_AT does at an instant that is reached with WAKE_AT_EN 1, with TARGET 0 (14 R349, R351); in RETAIN and
OFF_RDY both raise CORE_PSW_EN, with BUSY 1 (14 R353). LOW_POWER_ENTRY: the engine that is quiet as its ccyc ends (that instant is a
deduction, log entry 31) enters the state that TARGET names: DOZE keeps every channel; what its last ccyc delivered is delivered in that
ccyc alone (03 R78, R80; log entry 31), and an event raised in it that takes no line is kept, the model's choice (log entry 46); RETAIN and OFF_RDY
lower CORE_PSW_EN, return every channel context and port to reset and make the shadows those in force, and keep the program store, the
routes in force, the fault log and ridge time (14 R349, R352, Table 14.5). -/
def Obligations.PowerStatesAreEntered : Prop :=
  (∀ (s : State) (g : LowTarget), portReady s = true →
    (s.pwr.st = .run →
      ∃ t, exec (.pwrTargetLow g) s = .next t ∧ t.pwr.st = .entering ∧ t.pwr.target = targetCode g ∧
        (s.cmd.job = .none → { t with pwr := s.pwr } = answer 0 false s) ∧
        (coreOn s = true → s.cmd.job ≠ .none → s.cmd.job ≠ .boot → t.cmd.busy = false ∧ t.cmd.job = .none)) ∧
    (s.pwr.st = .retain →
      ∃ t, exec (.pwrTargetLow .off) s = .next t ∧ t.pwr.st = .offRdy ∧ t.pwr.offRdy = true ∧ t.pwr.target = 3 ∧
        { t with pwr := s.pwr, cfg := s.cfg } = s) ∧
    (s.pwr.st = .entering →
      ∃ t, exec .pwrTargetRun s = .next t ∧ t.pwr.st = .run ∧ t.pwr.target = 0 ∧ { t with pwr := s.pwr } = answer 0 false s) ∧
    (s.pwr.st = .doze →
      ∃ t w, exec .pwrTargetRun s = .next t ∧ t.pwr.st = .waking ∧ t.pwr.target = 0 ∧ t.pwr.dozeW = some w ∧
        (w - s.clk.coreBase) % 128 = 0 ∧ s.clk.coreBase + coreCycle s + 8 ≤ w ∧ { t with pwr := s.pwr } = answer 0 false s) ∧
    (s.pwr.st = .retain ∨ s.pwr.st = .offRdy →
      ∃ t, exec .pwrTargetRun s = .next t ∧ t.pwr.st = .waking ∧ t.pwr.target = 0 ∧ t.pwr.pswEn = true ∧ t.pwr.inWake = true ∧
        t.cmd.busy = true ∧ t.cmd.job = .none ∧ { t with pwr := s.pwr, cmd := s.cmd } = answer 0 false s)) ∧
  (∀ s : State, s.pwr.st = .doze ∨ s.pwr.st = .retain ∨ s.pwr.st = .offRdy → s.pwr.wakeAtEn = true →
    s.pwr.wakeT.toNat ≤ s.clk.ridge.toNat →
    ∃ t, exec .wakeAt s = .next t ∧ t.pwr.st = .waking ∧ t.pwr.target = 0 ∧ t.pwr.wakeAtEn = hostWon 0x140 s ∧
      (s.pwr.st ≠ .doze → t.pwr.pswEn = true ∧ t.cmd.busy = true) ∧ t.chans = s.chans ∧ t.prog = s.prog) ∧
  ∀ s : State, s.pwr.st = .entering → coreOn s = true → quiet (endCore s) = true →
    (s.pwr.target = 1 →
      ∃ t, exec .lowPowerEntry s = .next t ∧ t.pwr.st = .doze ∧ t.chans = (endChans s).chans ∧ t.ports = (endChans s).ports ∧
        t.ev.delivered = [] ∧ t.ev.gdelivered = 0 ∧ t.ev.raised = (endChans s).ev.raised ∧ t.ev.lines = (endCore s).ev.lines ∧
        t.clk = s.clk ∧ KeepsMemory s t) ∧
    (s.pwr.target = 2 ∨ s.pwr.target = 3 → s.test.tm = false →
      ∃ t, exec .lowPowerEntry s = .next t ∧ t.pwr.st = (if s.pwr.target = 2 then .retain else .offRdy) ∧
        t.pwr.offRdy = decide (s.pwr.target = 3) ∧ t.pwr.pswEn = false ∧ (∀ ch, chan t ch = {}) ∧ (∀ n, port t n = {}) ∧
        t.pegSh = s.pegAct ∧ t.pegAct = s.pegAct ∧ t.shadow = s.routes ∧ t.routes = s.routes ∧ t.flog = (endChans s).flog ∧
        t.clk = s.clk ∧ ∀ a, readByte t.prog a = readByte s.prog a)

/-- DOZE_EXIT ends DOZE in its ccyc w: RUN, with memory, ridge time and the routes as they were, and no channel left WAITING on a line
that holds a count (14 R351). CORE_PSW_ACK answers a wake, and is sampled at TICK edges: one that rises in an odd ccyc acts at the next
(14 R348): core cycle 0 begins at the first CFG_CLK edge from then on (log entry 23,
DEDUCED from 01 R25); without an uncorrectable word the wake sequence ends in RUN with WAKE set and BUSY 0, the program store
kept; with one, ECC_MEM_UE and FALLBACK are set and a full boot follows (14 R353, R355; 01 R25). -/
def Obligations.WakesEnd : Prop :=
  (∀ (s : State) (w : Nat), s.pwr.st = .waking → s.pwr.dozeW = some w → w ≤ s.clk.now →
    ∃ t, exec .dozeExit s = .next t ∧ t.pwr.st = .run ∧ t.pwr.dozeW = none ∧ t.clk = s.clk ∧ t.routes = s.routes ∧
      KeepsMemory s t ∧
      ∀ ch, (chan t ch).st = .waiting → (chan t ch).waitOn = .line → (chan t ch).held = none →
        (line t (chan t ch).waitArg.toNat).cnt = 0) ∧
  (∀ (s : State) (census : BitVec 128) (found : WakeCheck), s.pwr.st ≠ .off → s.clk.now % 2 = 1 →
    exec (.corePswAck census found) s = .next { s with pwr := { s.pwr with ackIn := some (census, found) } }) ∧
  (∀ (s : State) (census : BitVec 128) (fixStore fixKept : BitVec 16), s.pwr.st = .waking → s.pwr.pswAck = false →
    s.pwr.pswEn = true → s.cmd.job = .none → s.clk.now % 2 = 1 → s.cfg.offered = [] → s.pd.pin = s.pd.req →
    s.pwr.ackIn = some (census, ⟨none, fixStore, fixKept⟩) →
    (tick s).pwr.st = .run ∧ (tick s).pwr.pswAck = true ∧ (tick s).pwr.wake = true ∧ (tick s).pwr.ackIn = none ∧
      (tick s).cmd.busy = false) ∧
  ∀ (s : State) (census : BitVec 128) (fixStore fixKept : BitVec 16), s.pwr.st = .waking → s.pwr.pswAck = false →
    s.pwr.pswEn = true → s.cmd.job ≠ .boot → s.clk.now % 2 = 0 →
    (∃ t, exec (.corePswAck census ⟨none, fixStore, fixKept⟩) s = .next t ∧ t.pwr.st = .run ∧ t.pwr.pswAck = true ∧
      t.pwr.wake = true ∧ t.cmd.busy = false ∧ t.clk.coreBase % 4 = 0 ∧ s.clk.now ≤ t.clk.coreBase ∧
      t.clk.coreBase < s.clk.now + 4 ∧ t.clk.ridge = s.clk.ridge ∧ KeepsMemory s t) ∧
    ∀ u, ∃ t, exec (.corePswAck census ⟨some u, fixStore, fixKept⟩) s = .next t ∧ t.pwr.st = .waking ∧ t.pwr.fallback = true ∧
      t.irq.cause.getLsbD 5 = true ∧ t.cmd.busy = true ∧ t.cmd.job = .boot ∧ KeepsMemory s t

/-- PORST_N sets ridge time to 0. Ridge time counts in RUN, DOZE and RETAIN, keeps its value across SYSRST_N and the engine soft
reset, and is lost in OFF with the rest of AO (11 R278). -/
def Obligations.RidgeTimeAcrossResets : Prop :=
  ∀ s : State,
    (s.test.tm = false → ∃ t, exec .porstN s = .next t ∧ t.clk.ridge = 0) ∧
    (s.pwr.st = .run ∨ s.pwr.st = .doze ∨ s.pwr.st = .retain → s.clk.now % 2 = 1 → s.clk.stepTo = none → s.clk.adj = 0 →
      s.clk.setTime = none → (tick s).clk.ridge = s.clk.ridge + 1) ∧
    (s.pwr.st ≠ .off → s.test.tm = false → s.clk.porstAt ≠ some s.clk.now →
      ∃ t, exec .sysrstN s = .next t ∧ t.clk.ridge = s.clk.ridge) ∧
    (∀ tok : Byte, accepts s = true →
      ∃ t u, exec (.engineSoftReset tok 0 0) s = .next t ∧ t.clk.ridge = s.clk.ridge ∧
        exec .softResetDrainEnd t = .next u ∧ u.clk.ridge = s.clk.ridge) ∧
    (∃ t, exec .supplyRemoval s = .next t ∧ t.pwr.st = .off ∧ t.clk.ridge = 0 ∧ t.flog = {} ∧ (s.test.tm = false → t.irq = {}))

/-- With TM 0, PORST_N leaves POR 1, and SYSRST_N leaves SYS 1 with the fault log and the other flags of PWR_STAT as they were, but that in
the ccyc of a PORST_N it does nothing, since PORST_N takes precedence (14 R357); both leave the block WAKING with BUSY 1, every channel and port at reset, empty RAMs, and every domain whose PD_REQ is 1 closed
(14 R358, Table 14.5; 03 R88). -/
def Obligations.ResetsLeaveTheResetState : Prop :=
  ∀ s : State, s.test.tm = false →
    (∃ t, exec .porstN s = .next t ∧ t.pwr.por = true ∧ t.pwr.sys = false ∧ t.flog = {} ∧ t.pwr.st = .waking ∧
      t.cmd.busy = true ∧ (∀ ch, chan t ch = {}) ∧ (∀ n, port t n = {}) ∧ t.prog = [] ∧ t.cmd.buf = [] ∧
      t.pd.closed = s.pd.pin ∧ { t.irq with fresh := [] } = {} ∧ t.clk.porstAt = some s.clk.now) ∧
    (s.clk.porstAt = some s.clk.now → exec .sysrstN s = .next s) ∧
    (s.pwr.st ≠ .off → s.clk.porstAt ≠ some s.clk.now →
      ∃ t, exec .sysrstN s = .next t ∧ t.pwr.por = s.pwr.por ∧ t.pwr.sys = true ∧ t.pwr.wake = s.pwr.wake ∧
        t.pwr.fallback = s.pwr.fallback ∧ ((∀ e ∈ s.chans, e.2.logs = []) → t.flog = s.flog) ∧ t.pwr.st = .waking ∧ t.cmd.busy = true ∧
        (∀ ch, chan t ch = {}) ∧ (∀ n, port t n = {}) ∧ t.prog = [] ∧ t.cmd.buf = [] ∧ t.pd.closed = s.pd.pin)

/-! ### Boot (12, 13) -/

/-- Which copy a boot loads (12 R326): SAFE exactly when no copy is both valid and loaded without error; of two valid copies the
one of higher SEQ, and copy A of equal ones, is tried first; a copy that fails its load has reason 0xC, and the other copy, if valid, is
tried after it. That a copy other than the first choice of two valid ones was tried, or was the only one, is noted (`other`). -/
def Obligations.BootChoosesTheCopy : Prop :=
  ∀ (a b la lb : CopyImage) (va vb : Nat × Nat),
    ((bootPlan a b la lb va vb).image = none ↔
      (va.1 ≠ 0 ∨ loadOk a la = false) ∧ (vb.1 ≠ 0 ∨ loadOk b lb = false)) ∧
    (va.1 = 0 → vb.1 = 0 → imgSeq a.bytes < imgSeq b.bytes → loadOk b lb = true →
      (bootPlan a b la lb va vb).image = some (true, b.bytes)) ∧
    (va.1 = 0 → vb.1 = 0 → imgSeq b.bytes ≤ imgSeq a.bytes → loadOk a la = true →
      (bootPlan a b la lb va vb).image = some (false, a.bytes)) ∧
    (va.1 = 0 → vb.1 ≠ 0 → loadOk a la = true → (bootPlan a b la lb va vb).image = some (false, a.bytes)) ∧
    (va.1 ≠ 0 → vb.1 = 0 → loadOk b lb = true → (bootPlan a b la lb va vb).image = some (true, b.bytes)) ∧
    (va.1 = 0 → vb.1 ≠ 0 → loadOk a la = false → bootPlan a b la lb va vb =
      { image := none, loads := [false], ra := (12, 0), rb := vb, other := true }) ∧
    (va.1 ≠ 0 → vb.1 = 0 → loadOk b lb = false → bootPlan a b la lb va vb =
      { image := none, loads := [true], ra := va, rb := (12, 0), other := true }) ∧
    (va.1 = 0 → vb.1 = 0 → imgSeq a.bytes < imgSeq b.bytes → loadOk b lb = false → bootPlan a b la lb va vb =
      { image := if loadOk a la then some (false, a.bytes) else none, loads := [true, false]
        ra := if loadOk a la then va else (12, 0), rb := (12, 0), other := true }) ∧
    (va.1 = 0 → vb.1 = 0 → imgSeq b.bytes ≤ imgSeq a.bytes → loadOk a la = false → bootPlan a b la lb va vb =
      { image := if loadOk b lb then some (true, b.bytes) else none, loads := [false, true]
        ra := (12, 0), rb := if loadOk b lb then vb else (12, 0), other := true }) ∧
    ((bootPlan a b la lb va vb).other = (decide (va.1 = 0 ∨ vb.1 = 0) &&
      !(decide (va.1 = 0 ∧ vb.1 = 0) && (if imgSeq a.bytes < imgSeq b.bytes then loadOk b lb else loadOk a la)))) ∧
    (va.1 ≠ 0 → vb.1 ≠ 0 → (bootPlan a b la lb va vb).ra = va ∧ (bootPlan a b la lb va vb).rb = vb)

/-- BOOT ends in RUN with BUSY 0 and a status that tells what it came to: the copy loaded, or SAFE with BS_SAFE set, and the reason of
each copy (12 R326, R329, R332; 13 R345). In SAFE the program store holds no byte that is not 0. The port cycles of the boot are those in
which both copies are read, then each copy whose load is tried (the model's choice: they all lie in the step, log entry 9); every request
in them is a read with PRIV 1, MID 63, DOM 0, CLS 3 and a tag of the port (02 R65). What arrives on the port besides (`bootStray`): a
response on a tag that is not outstanding is logged, with PORT_UNKNOWN_TAG, and one of a burst that was given up frees its tag; one of
which parity fails is dropped and logged, with PORT_PARITY; a credit pulse at a full counter is dropped, with PORT_CREDIT_OVF (02 R58, R61,
R62). BOOT_PORT_TIMEOUT: a reading or writing command that waits for a response fails with 0x0C; a boot goes on with the timeout noted for
its copy, and the burst, among those of its pass, keeps its tag (13 R341; that it is presented in that pass, within BOOT's step, is the
model's choice, log entry 9). -/
def Obligations.BootCompletes : Prop :=
  (∀ (s : State) (a b la lb : CopyImage) (census : BitVec 128) (lock : Option (BitVec 256)),
    s.pwr.st = .waking → s.cmd.job = .boot → s.pwr.pswAck = true →
    ∃ t p, exec (.boot a b la lb census lock) s = .next t ∧
      p = bootPlan a b la lb (validate { image := a, tmo := bootTmo s false } lock)
        (validate { image := b, tmo := bootTmo s true } lock) ∧ t.boot = (bootReads a b la lb p s).boot ∧
      t.pwr.st = .run ∧ t.cmd.busy = false ∧ t.bs.done = true ∧ t.bs.safe = p.image.isNone ∧
      t.bs.reasonA = BitVec.ofNat 4 p.ra.1 ∧ t.bs.reasonB = BitVec.ofNat 4 p.rb.1 ∧
      t.bs.active = (match p.image with
        | none => 2
        | some (c, _) => if c then 1 else 0) ∧
      (p.image = none → t.irq.cause.getLsbD 48 = true ∧ t.bs.seq = 0 ∧ t.dig.epoch = 0 ∧ ∀ x, readByte t.prog x = 0) ∧
      (∀ c i, p.image = some (c, i) → t.dig.epoch = BitVec.ofNat 32 (imgEpoch i) ∧ t.bs.seq = BitVec.ofNat 32 (imgSeq i)) ∧
      (p.other = true → t.irq.cause.getLsbD 49 = true) ∧ t.clk.ridge = s.clk.ridge) ∧
  (∀ (beat : Nat → Nat → Bool → RdBeat) (n : Nat) (p : BootPort) (todo : List BootBurst) (out : List OpenBurst),
    ∀ c ∈ (runReads beat n p todo out).1, c.wd = none ∧ c.wr = none ∧
      ∀ q, c.rq = some q → q.write = false ∧ q.priv = true ∧ q.mid = 63 ∧ q.dom = 0 ∧ q.cls = 3 ∧ q.tag.toNat < 4 ∧
        ∃ b ∈ todo, q.addr = BitVec.ofNat 48 b.addr ∧ q.len = BitVec.ofNat 3 (b.len - 1)) ∧
  (∀ (s : State) (w : Bool) (tag : Tag) (resp : BitVec 3),
    (bootTagOut s w tag = false → (bootStray (.response w tag resp) s).irq.cause.getLsbD 2 = true ∧
      (bootStray (.response w tag resp) s).boot.rtags = s.boot.rtags ∧ (bootStray (.response w tag resp) s).boot.wtags = s.boot.wtags ∧
      (s.flog.entries.length < 64 → ∃ e ∈ (bootStray (.response w tag resp) s).flog.entries, e.kind = 6 ∧ e.tag = tag)) ∧
    (bootTagOut s w tag = true → bootTagOut (bootStray (.response w tag resp) s) w tag = false ∧
      (bootStray (.response w tag resp) s).irq = s.irq ∧ (bootStray (.response w tag resp) s).flog = s.flog) ∧
    ((bootStray (.parity w tag) s).irq.cause.getLsbD 3 = true ∧ (bootStray (.parity w tag) s).boot.rtags = s.boot.rtags ∧
      (bootStray (.parity w tag) s).boot.wtags = s.boot.wtags ∧
      (s.flog.entries.length < 64 → ∃ e ∈ (bootStray (.parity w tag) s).flog.entries, e.kind = 7 ∧ e.tag = tag ∧
        e.detail = if bootTagOut s w tag then 0 else 1)) ∧
    ((if w then 64 ≤ s.boot.wdCred else 32 ≤ s.boot.rqCred) → (bootStray (.credit w) s).irq.cause.getLsbD 1 = true ∧
      (bootStray (.credit w) s).boot.rqCred = s.boot.rqCred ∧ (bootStray (.credit w) s).boot.wdCred = s.boot.wdCred)) ∧
  ∀ (s : State) (copyB : Bool) (o : BitVec 18),
    (∀ v c b, s.cmd.job = .bootRead v c b →
      ∃ t, exec (.bootPortTimeout copyB o) s = .next t ∧ Ended s.cmd.token s.cmd.opcode 0x0C {} t ∧ t.boot = s.boot ∧
        t.chans = s.chans ∧ KeepsMemory s t) ∧
    (∀ x y p stopped, s.cmd.job = .bootWrite x y p none stopped →
      ∃ t, exec (.bootPortTimeout copyB o) s = .next t ∧ Ended s.cmd.token s.cmd.opcode 0x0C {} t ∧ t.boot = s.boot ∧
        t.chans = s.chans ∧ KeepsMemory s t) ∧
    (s.cmd.job = .boot → s.pwr.st = .waking → s.pwr.pswAck = true →
      ∃ t, exec (.bootPortTimeout copyB o) s = .next t ∧ t.cmd.busy = s.cmd.busy ∧ t.cmd.job = .boot ∧ t.boot.en = true ∧
        t.boot = (if s.cmd.tmoA = none ∧ s.cmd.tmoB = none then freshBoot s else openBoot s).boot ∧
        (∀ x, x ∈ t.cmd.tmos ↔ x = areaBurst copyB o.toNat ∨ x ∈ s.cmd.tmos) ∧
        (copyB = false → t.cmd.tmoA = earlierTmo s.cmd.tmoA o.toNat ∧ t.cmd.tmoB = s.cmd.tmoB) ∧
        (copyB = true → t.cmd.tmoB = earlierTmo s.cmd.tmoB o.toNat ∧ t.cmd.tmoA = s.cmd.tmoA) ∧ KeepsMemory s t)

/-! ### Gennal: LOAD, VERIFY, RESTRUCTURE (13) -/

/-- RESTRUCTURE of a valid copy on an idle engine out of SAFE loads it as at boot: the structural sections, the status of the
copy and its EPOCH, and the shadows are the routes loaded, but for what the host writes in that ccyc (01 R21); a copy that is rejected, or whose load fails, leaves the configuration and fails with 0x0D, its reason recorded; a busy
engine fails it with 0x07 and SAFE with 0x08; with every read tag of the BOOT port lost it fails with 0x0C; a burst without a response
leaves it in progress (13 R341, Tables 13.3, 13.6, 13.8). Where the SHA-256 unit serves a rehash, it waits with the configuration as it is,
and goes on once the unit is free (13 R346). The reads of the copy are made in the step, one after the other, under the lowest free tags
(the model's choice, log entries 9 and 40). -/
def Obligations.RestructureLoadsACopy : Prop :=
  ∀ (s : State) (tok : Byte) (copyB : Bool) (i j : CopyImage) (census : BitVec 128) (lock : Option (BitVec 256)),
    accepts s = true →
    (engineIdle s = true → s.bs.safe = false → allLost s.boot.rtags = false →
      (s.dig.users = [] →
        ((validate { image := i } lock).1 = 0 → loadOk i j = true →
          ∃ t, exec (.restructure tok copyB 0 (.image i) (.image j) census lock) s = .next t ∧
            Ended tok 3 0 (verifyResults (0, 0) i.bytes) t ∧ t.bs.loaded = structural i.bytes ∧
            t.bs.active = (if copyB then 1 else 0) ∧ t.bs.seq = BitVec.ofNat 32 (imgSeq i.bytes) ∧
            t.dig.epoch = BitVec.ofNat 32 (imgEpoch i.bytes) ∧ (s.cfg.wrote = [] → t.shadow = t.routes) ∧
            t.boot = (readCopy copyB j none (readCopy copyB i none (freshBoot s))).boot) ∧
        ((validate { image := i } lock).1 = 0 → loadOk i j = false →
          ∃ t, exec (.restructure tok copyB 0 (.image i) (.image j) census lock) s = .next t ∧
            Ended tok 3 0x0D (verifyResults (12, 0) i.bytes) t ∧ t.chans = s.chans ∧ t.routes = s.routes ∧
            t.bs.loaded = s.bs.loaded ∧ (if copyB then t.bs.reasonB else t.bs.reasonA) = 12 ∧ KeepsMemory s t) ∧
        ((validate { image := i } lock).1 ≠ 0 →
          ∃ t, exec (.restructure tok copyB 0 (.image i) (.image j) census lock) s = .next t ∧
            Ended tok 3 0x0D (verifyResults (validate { image := i } lock) i.bytes) t ∧ t.chans = s.chans ∧
            t.routes = s.routes ∧ t.bs.loaded = s.bs.loaded ∧
            (if copyB then t.bs.reasonB else t.bs.reasonA) = BitVec.ofNat 4 (validate { image := i } lock).1 ∧
            t.boot = (readCopy copyB i none (freshBoot s)).boot ∧ KeepsMemory s t)) ∧
      (s.dig.users ≠ [] →
        ∃ t, exec (.restructure tok copyB 0 (.image i) (.image j) census lock) s = .next t ∧ InProgress tok 3 t ∧
          t.chans = s.chans ∧ t.routes = s.routes ∧ t.dig = s.dig ∧ t.bs = s.bs ∧ KeepsMemory s t ∧
          ((validate { image := i } lock).1 = 0 → loadOk i j = true →
            Ended tok 3 0 (verifyResults (0, 0) i.bytes) (restructureGoes { t with dig := { t.dig with users := [] } }) ∧
            (restructureGoes { t with dig := { t.dig with users := [] } }).bs.loaded = structural i.bytes)) ∧
      ∀ lost, ∃ t, exec (.restructure tok copyB 0 (.noAnswer lost i) (.image j) census lock) s = .next t ∧ InProgress tok 3 t ∧
        t.boot = (readCopy copyB i (some lost) (freshBoot s)).boot ∧ t.chans = s.chans ∧ t.routes = s.routes ∧ KeepsMemory s t) ∧
    (engineIdle s = true → s.bs.safe = false → allLost s.boot.rtags = true →
      ∃ t, exec (.restructure tok copyB 0 (.image i) (.image j) census lock) s = .next t ∧ Ended tok 3 12 {} t ∧
        t.chans = s.chans ∧ t.boot = s.boot ∧ KeepsMemory s t) ∧
    (engineIdle s = false →
      ∃ t, exec (.restructure tok copyB 0 (.image i) (.image j) census lock) s = .next t ∧ Ended tok 3 7 {} t ∧
        t.chans = s.chans ∧ KeepsMemory s t) ∧
    (engineIdle s = true → s.bs.safe = true →
      ∃ t, exec (.restructure tok copyB 0 (.image i) (.image j) census lock) s = .next t ∧ Ended tok 3 8 {} t ∧
        t.chans = s.chans ∧ KeepsMemory s t)

/-- LOAD_PROGRAM_STORE (LOAD, DEST 0): with OFFSET and NBYTES multiples of 8, 8 to 4,096 bytes inside the store, the store holds those
bytes of CMD_BUF and every other byte stays; the epoch advances unless NOBUMP; otherwise it fails with 0x02. LOAD_OPTION_AREA (DEST 1)
presents whole beats outside the active copy; it completes with the last OK response, at once or with the responses to come, fails with
0x0B on another (what else arrives on the port changes nothing of that), and waits where a burst has none yet; under VMON_LOW it fails with 0x09, in the active copy with 0x0A, with every write
tag lost with 0x0C (13 R341, R342, Table 13.3). VERIFY reports what the validation of the copy finds, a rejected one too (log entry 40),
with its SEQ and LENGTH, waits while the SHA-256 unit serves a rehash (13 R346), and changes nothing else. VERIFY_READ copies the bytes of
the range to the start of CMD_BUF, where every burst of the area answered OK, and leaves the rest of CMD_BUF; its OFFSET counts from the
base of copy A (log entry 29), and a byte that the image does not list is 0xFF (log entry 40). Every request of a LOAD is a write with the
attributes of Gennal, for one of its bursts (02 R65). The bursts, their order, their tags and the port cycles of the step are the model's
choice (log entry 9). -/
def Obligations.LoadsAndVerifications : Prop :=
  (∀ (s : State) (tok : Byte) (nobump : Bool) (off n : Word), accepts s = true →
    (off.toNat % 8 = 0 → n.toNat % 8 = 0 → 8 ≤ n.toNat → n.toNat ≤ 4096 → off.toNat + n.toNat ≤ 0x40000 →
      ∃ t, exec (.loadProgramStore tok nobump off n 0) s = .next t ∧ Ended tok 1 0 {} t ∧ t.chans = s.chans ∧
        t.ports = s.ports ∧ t.dig.epoch = (if nobump then s.dig.epoch else s.dig.epoch + 1) ∧
        t.dig.recPend = true ∧ t.dig.recd = s.dig.recd ∧ t.dig.act = s.dig.act ∧
        (∀ a, readByte t.cmd.buf a = readByte s.cmd.buf a) ∧
        ∀ a, readByte t.prog a = if off.toNat ≤ a ∧ a < off.toNat + n.toNat then readByte s.cmd.buf (a - off.toNat)
          else readByte s.prog a) ∧
    (off.toNat % 8 ≠ 0 ∨ n.toNat % 8 ≠ 0 ∨ n.toNat < 8 ∨ 4096 < n.toNat ∨ 0x40000 < off.toNat + n.toNat →
      ∃ t, exec (.loadProgramStore tok nobump off n 0) s = .next t ∧ Ended tok 1 2 {} t ∧ t.chans = s.chans ∧
        t.dig = s.dig ∧ KeepsMemory s t)) ∧
  (∀ (s : State) (tok : Byte) (nobump : Bool) (off n : Word), accepts s = true →
    (areaOk off.toNat n.toNat = true → s.mon.vmon = false → activeArea s off.toNat = false →
      (allLost s.boot.wtags = false →
        (∃ t, exec (.loadOptionArea tok nobump off n 0 .ok) s = .next t ∧ Ended tok 1 0 {} t ∧
          t.boot = (writeBursts (optionAddr off.toNat) allOk (burstsOf (optionAddr off.toNat) n.toNat) (freshBoot s)).boot ∧
          t.chans = s.chans ∧ KeepsMemory s t) ∧
        (∀ r d o, ∃ t, exec (.loadOptionArea tok nobump off n 0 (.err r d o)) s = .next t ∧
          Ended tok 1 0x0B (badResponse r d o.toNat) t ∧ t.chans = s.chans ∧ KeepsMemory s t) ∧
        (∀ p, ∃ t, exec (.loadOptionArea tok nobump off n 0 (.noAnswer p)) s = .next t ∧ InProgress tok 1 t ∧
          t.boot = (writeBursts (optionAddr off.toNat) allOk (loseBurst (some (min p.toNat
            ((burstsOf (optionAddr off.toNat) n.toNat).length - 1))) (burstsOf (optionAddr off.toNat) n.toNat)) (freshBoot s)).boot ∧
          t.chans = s.chans ∧ KeepsMemory s t) ∧
        (∀ l, ∃ t, exec (.loadOptionArea tok nobump off n 0 (.strays none l)) s = .next t ∧ Ended tok 1 0 {} t ∧
          t.boot = (bootStrays l (writeBursts (optionAddr off.toNat) allOk (burstsOf (optionAddr off.toNat) n.toNat)
            (freshBoot s))).boot ∧ t.chans = s.chans ∧ KeepsMemory s t) ∧
        (∀ p l, ∃ t, exec (.loadOptionArea tok nobump off n 0 (.strays (some p) l)) s = .next t ∧ InProgress tok 1 t ∧
          t.chans = s.chans ∧ KeepsMemory s t) ∧
        ∀ p, ∃ t, exec (.loadOptionArea tok nobump off n 0 (.later p)) s = .next t ∧ InProgress tok 1 t ∧
          Ended tok 1 0 {} (jobsDue t) ∧ t.chans = s.chans ∧ KeepsMemory s (jobsDue t)) ∧
      (allLost s.boot.wtags = true → ∀ x, ∃ t, exec (.loadOptionArea tok nobump off n 0 x) s = .next t ∧ Ended tok 1 12 {} t ∧
        t.boot = s.boot ∧ KeepsMemory s t)) ∧
    (areaOk off.toNat n.toNat = true → s.mon.vmon = true → ∀ x,
      ∃ t, exec (.loadOptionArea tok nobump off n 0 x) s = .next t ∧ Ended tok 1 9 {} t ∧ t.boot = s.boot ∧ KeepsMemory s t) ∧
    (areaOk off.toNat n.toNat = true → s.mon.vmon = false → activeArea s off.toNat = true → ∀ x,
      ∃ t, exec (.loadOptionArea tok nobump off n 0 x) s = .next t ∧ Ended tok 1 10 {} t ∧ t.boot = s.boot ∧ KeepsMemory s t) ∧
    (areaOk off.toNat n.toNat = false → ∀ x,
      ∃ t, exec (.loadOptionArea tok nobump off n 0 x) s = .next t ∧ Ended tok 1 2 {} t ∧ t.boot = s.boot ∧ KeepsMemory s t)) ∧
  (∀ (beat : Nat → Bool → WdOut) (resp : BootBurst → BitVec 3 × BitVec 4 × BitVec 3) (n : Nat) (p : BootPort) (todo : List BootBurst)
    (out : List OpenBurst), ∀ c ∈ (runWrites beat resp n p todo out).1, c.rd = none ∧
      ∀ q, c.rq = some q → c.wd.isSome = true ∧ q.write = true ∧ q.priv = true ∧ q.mid = 63 ∧ q.dom = 0 ∧ q.cls = 3 ∧ q.tag.toNat < 4 ∧
        ∃ b ∈ todo, q.addr = BitVec.ofNat 48 b.addr ∧ q.len = BitVec.ofNat 3 (b.len - 1)) ∧
  ∀ (s : State) (tok : Byte) (copyB : Bool) (i : CopyImage), accepts s = true → allLost s.boot.rtags = false →
    (s.dig.users = [] → ∀ lock,
      ∃ t, exec (.verify tok copyB 0 (.image i) lock) s = .next t ∧
        Ended tok 2 0 (verifyResults (validate { image := i } lock) i.bytes) t ∧ t.chans = s.chans ∧ t.bs = s.bs ∧
        t.boot = (readCopy copyB i none (freshBoot s)).boot ∧ KeepsMemory s t) ∧
    (s.dig.users ≠ [] → ∀ lock,
      ∃ t, exec (.verify tok copyB 0 (.image i) lock) s = .next t ∧ InProgress tok 2 t ∧
        Ended tok 2 0 (verifyResults (validate { image := i } lock) i.bytes)
          (verifyGoes { t with dig := { t.dig with users := [] } }) ∧
        t.dig = s.dig ∧ t.chans = s.chans ∧ t.bs = s.bs ∧ KeepsMemory s t) ∧
    (∀ off n : Word, areaOk off.toNat n.toNat = true → off.toNat / 0x40000 = (if copyB then 1 else 0) → i.bad = [] →
      ∃ t, exec (.verifyRead tok copyB off n 0 (.image i)) s = .next t ∧ Ended tok 2 0 {} t ∧ t.chans = s.chans ∧
        t.prog = s.prog ∧ t.boot = (readBoot (copyBase copyB) (optionAddr off.toNat) n.toNat i none (freshBoot s)).boot ∧
        ∀ a, readByte t.cmd.buf a = if a < n.toNat then (i.bytes[off.toNat % 0x40000 + a]?).getD 0xFF
          else readByte s.cmd.buf a) ∧
    (∀ off n : Word, areaOk off.toNat n.toNat = false ∨ off.toNat / 0x40000 ≠ (if copyB then 1 else 0) →
      ∃ t, exec (.verifyRead tok copyB off n 0 (.image i)) s = .next t ∧ Ended tok 2 2 {} t ∧ t.boot = s.boot ∧
        KeepsMemory s t) ∧
    ∀ lock lost, ∃ t, exec (.verify tok copyB 0 (.noAnswer lost i) lock) s = .next t ∧ InProgress tok 2 t ∧
      t.boot = (readCopy copyB i (some lost) (freshBoot s)).boot ∧ KeepsMemory s t

/-! ### Gennal: channel commands (13, 04, 09) -/

/-- PARK: READY and WAITING channels are PARKED in the ccyc with PARK_SRC 0, and the command completes as that ccyc ends; a PARKED one takes
PARK_SRC 0, and completes so too, unless a fault halts it first (0x06); a RUNNING one, or one that entered WAITING in this ccyc, parks at
its next beat boundary, and the command waits, unless the retirement of its MOVE brings it to a halt; it comes before a STOP and other
progress of the same ccyc (a channel that was READY is PARKED, though it has run and halted since), and after a fault of it (0x06), a
deadline reached in it among these; IDLE, HALTED and ABORTING fail with 0x05, an unassigned channel with 0x04 (13 R338; 09 R241; 04 R99,
R101); that a PARKED channel which holds a fault fails with 0x06, and a HALTED one with 0x06 only in the ccyc of its halt, is the model's
reading (log entry 30, DEDUCED). RESUME makes a PARKED channel READY; with no tag of the faulting instruction outstanding RESUME makes a HALTED one READY at
the word it halted at, and SKIP READY past it; else they are pending; other states fail with 0x05 (09 R234 to R236; what SKIP passes is
a free value where it is not known, log entry 6). RESET_CH: with no tag outstanding the context returns to reset, else the channel is
ABORTING first; its lines are cleared (04 R98). ENGINE_SOFT_RESET aborts every channel and clears a freeze (the latter DEDUCED, log entry
30); SOFT_RESET_DRAIN_END, with
every tag in or 2,048 CFG_CLK cycles on, makes the rest orphans, clears every line, and leaves IDLE all but the START channels (14 R359,
R360). -/
def Obligations.ChannelCommands : Prop :=
  (∀ (s : State) (tok : Byte) (ch : Chan), accepts s = true →
    ((chan s ch.toNat).assigned = true →
      (unmoved s ch.toNat = true →
        ((chan s ch.toNat).st = .ready ∨ ((chan s ch.toNat).st = .waiting ∧ (chan s ch.toNat).held = none ∧
            (chan s ch.toNat).waitAt ≠ some s.clk.now ∧ (condOpen s ch.toNat (chan s ch.toNat) = false ∨ deadlineDue s (chan s ch.toNat) = false)) →
          ∃ t, exec (.park tok ch 0) s = .next t ∧ InProgress tok 5 t ∧ Ended tok 5 0 {} (sealCcyc t) ∧
            (chan t ch.toNat).st = .parked ∧ (chan (sealCcyc t) ch.toNat).st = .parked ∧
            (chan t ch.toNat).parkSrc = false ∧ (chan t ch.toNat).pc = (chan s ch.toNat).pc ∧
            (chan t ch.toNat).a = (chan s ch.toNat).a ∧ (chan t ch.toNat).l = (chan s ch.toNat).l ∧
            progress (chan t ch.toNat) = progress (chan s ch.toNat) ∧ KeepsMemory s t) ∧
        ((chan s ch.toNat).st = .running → (chan s ch.toNat).held = none →
          (canRetire s ch.toNat = false →
            ∃ t, exec (.park tok ch 0) s = .next t ∧ InProgress tok 5 t ∧ (chan t ch.toNat).parkPend = true ∧
              (chan t ch.toNat).st = .running ∧ (chan t ch.toNat).pc = (chan s ch.toNat).pc ∧
              (chan t ch.toNat).a = (chan s ch.toNat).a ∧ KeepsOthers ch.toNat s t ∧ KeepsMemory s t) ∧
          ∃ t, exec (.park tok ch 0) s = .next t ∧ InProgress tok 5 t ∧ KeepsMemory s t ∧
            ((chan t ch.toNat).st ≠ .halted → (chan t ch.toNat).parkPend = true) ∧
            ((chan t ch.toNat).st = .halted → Ended tok 5 6 {} (sealCcyc t))) ∧
        ((chan s ch.toNat).st = .idle → (chan s ch.toNat).stopAt = some s.clk.now → (chan s ch.toNat).held = none →
          (chan s ch.toNat).inMove = false →
          ∃ t, exec (.park tok ch 0) s = .next t ∧ InProgress tok 5 t ∧ (chan t ch.toNat).parkPend = true ∧
            (chan t ch.toNat).st = .running ∧ (chan t ch.toNat).en = true ∧ (chan t ch.toNat).pc = (chan s ch.toNat).pc ∧
            KeepsOthers ch.toNat s t ∧ KeepsMemory s t) ∧
        ((chan s ch.toNat).st = .waiting → (chan s ch.toNat).held = none → (chan s ch.toNat).waitAt = some s.clk.now →
          ∃ t, exec (.park tok ch 0) s = .next t ∧ InProgress tok 5 t ∧ (chan t ch.toNat).parkPend = true ∧
            (chan t ch.toNat).st = .waiting ∧ (chan t ch.toNat).pc = (chan s ch.toNat).pc ∧ KeepsOthers ch.toNat s t ∧
            KeepsMemory s t) ∧
        ((chan s ch.toNat).held = none → (chan s ch.toNat).waitAt ≠ some s.clk.now →
          condOpen s ch.toNat (chan s ch.toNat) = true → deadlineDue s (chan s ch.toNat) = true →
          ∃ t, exec (.park tok ch 0) s = .next t ∧ Ended tok 5 6 {} (sealCcyc t) ∧ (chan t ch.toNat).st = .halted ∧
            (chan t ch.toNat).faultInfo.cause = .deadline ∧ KeepsMemory s t) ∧
        (((chan s ch.toNat).st = .parked ∨ (chan s ch.toNat).st = .waiting ∨ (chan s ch.toNat).st = .running) →
            (chan s ch.toNat).held ≠ none →
          ∃ t, exec (.park tok ch 0) s = .next t ∧ Ended tok 5 6 {} t ∧ ∀ k, chan t k = chan s k) ∧
        ((chan s ch.toNat).st = .aborting ∨ ((chan s ch.toNat).st = .idle ∧ (chan s ch.toNat).stopAt ≠ some s.clk.now) ∨
            ((chan s ch.toNat).st = .halted ∧ (chan s ch.toNat).haltAt ≠ s.clk.now) →
          ∃ t, exec (.park tok ch 0) s = .next t ∧ Ended tok 5 5 {} t ∧ ∀ k, chan t k = chan s k)) ∧
      ((chan s ch.toNat).st = .parked → (chan s ch.toNat).held = none →
        ∃ t, exec (.park tok ch 0) s = .next t ∧ InProgress tok 5 t ∧ Ended tok 5 0 {} (sealCcyc t) ∧
          (chan t ch.toNat).parkSrc = false ∧ (chan t ch.toNat).st = .parked ∧ KeepsOthers ch.toNat s t ∧ KeepsMemory s t ∧
          ∀ u : State, u.cmd = t.cmd → (chan u ch.toNat).st = .halted → Ended tok 5 6 {} (sealCcyc u)) ∧
      ((chan s ch.toNat).st = .halted → (chan s ch.toNat).haltAt = s.clk.now →
        ((∀ b, earlier s ch.toNat = some b → b.st ≠ .ready) →
          ∃ t, exec (.park tok ch 0) s = .next t ∧ Ended tok 5 6 {} t ∧ ∀ k, chan t k = chan s k) ∧
        ∀ b, earlier s ch.toNat = some b → b.st = .ready →
          ∃ t, exec (.park tok ch 0) s = .next t ∧ InProgress tok 5 t ∧ (chan t ch.toNat).st = .parked ∧
            (chan t ch.toNat).pc = b.pc ∧ KeepsMemory s t)) ∧
    ((chan s ch.toNat).assigned = false →
      ∃ t, exec (.park tok ch 0) s = .next t ∧ Ended tok 5 4 {} t ∧ t.chans = s.chans)) ∧
  (∀ (s : State) (tok : Byte) (ch : Chan), accepts s = true → (chan s ch.toNat).assigned = true →
    ((chan s ch.toNat).st = .parked →
      ∃ t, exec (.resume tok ch 0) s = .next t ∧ Ended tok 6 0 {} t ∧ (chan t ch.toNat).st = .ready ∧
        (chan t ch.toNat).pc = (chan s ch.toNat).pc ∧ (chan t ch.toNat).a = (chan s ch.toNat).a ∧
        (chan t ch.toNat).l = (chan s ch.toNat).l ∧ progress (chan t ch.toNat) = progress (chan s ch.toNat) ∧
        KeepsOthers ch.toNat s t ∧ KeepsMemory s t) ∧
    ((chan s ch.toNat).st = .halted → instrTags s ch.toNat = false →
      (∃ t, exec (.resume tok ch 0) s = .next t ∧ Ended tok 6 0 {} t ∧ (chan t ch.toNat).st = .ready ∧
        (chan t ch.toNat).faultInfo.valid = false ∧ (chan t ch.toNat).pc = (chan s ch.toNat).pc ∧
        (chan t ch.toNat).a = (chan s ch.toNat).a ∧ (chan t ch.toNat).l = (chan s ch.toNat).l ∧
        (chan t ch.toNat).moveWr = (chan s ch.toNat).moveWr ∧ KeepsOthers ch.toNat s t ∧ KeepsMemory s t) ∧
      ∃ t, exec (.skip tok ch 0) s = .next t ∧ Ended tok 7 0 {} t ∧ (chan t ch.toNat).st = .ready ∧
        (chan t ch.toNat).faultInfo.valid = false ∧
        (∀ w, knownWord s (chan s ch.toNat) = some w →
          (chan t ch.toNat).pc = (chan s ch.toNat).pc.plus (skipBytes (chan s ch.toNat) w)) ∧
        ((chan t ch.toNat).pc = (chan s ch.toNat).pc.plus 8 ∨ (chan t ch.toNat).pc = (chan s ch.toNat).pc.plus 16) ∧
        (chan t ch.toNat).inMove = false ∧ (chan t ch.toNat).moveRd = 0 ∧ (chan t ch.toNat).moveWr = 0 ∧
        (chan t ch.toNat).l = (chan s ch.toNat).l ∧ KeepsOthers ch.toNat s t ∧ KeepsMemory s t) ∧
    ((chan s ch.toNat).st = .halted → instrTags s ch.toNat = true →
      (∃ t, exec (.resume tok ch 0) s = .next t ∧ Ended tok 6 0 {} t ∧ (chan t ch.toNat).st = .halted ∧
        (chan t ch.toNat).pendCmd = .resume) ∧
      ∃ t, exec (.skip tok ch 0) s = .next t ∧ Ended tok 7 0 {} t ∧ (chan t ch.toNat).st = .halted ∧
        (chan t ch.toNat).pendCmd = .skip) ∧
    ((chan s ch.toNat).st ≠ .halted →
      ((chan s ch.toNat).st ≠ .parked → ∃ t, exec (.resume tok ch 0) s = .next t ∧ Ended tok 6 5 {} t ∧ t.chans = s.chans) ∧
      ∃ t, exec (.skip tok ch 0) s = .next t ∧ Ended tok 7 5 {} t ∧ t.chans = s.chans)) ∧
  (∀ (s : State) (tok : Byte) (ch : Chan), accepts s = true → (chan s ch.toNat).assigned = true →
    ∃ t, exec (.resetCh tok ch 0) s = .next t ∧ Ended tok 8 0 {} t ∧
      (noTags s ch.toNat = true → (chan s ch.toNat).st ≠ .aborting → unmoved s ch.toNat = true →
        chan t ch.toNat = resetContext (chan s ch.toNat)) ∧
      (noTags s ch.toNat = false → (chan t ch.toNat).st = .aborting ∧ (chan t ch.toNat).resetting = true) ∧
      (∀ n ∈ ownedLines s ch.toNat, (line t n).cnt = 0 ∧ (line t n).ovf = false) ∧
      (unmoved s ch.toNat = true → ∀ n, n ∉ ownedLines s ch.toNat → line t n = line s n) ∧ KeepsMemory s t) ∧
  (∀ (s : State) (tok : Byte), accepts s = true →
    ∃ t, exec (.engineSoftReset tok 0 0) s = .next t ∧ InProgress tok 8 t ∧ t.srst.start = some s.clk.now ∧
      (∀ ch, (chan t ch).st = .idle ∨ (chan t ch).st = .aborting) ∧ t.mon.frzSched = false ∧ t.mon.frzArb = 0 ∧
      KeepsMemory s t) ∧
  ∀ (s : State) (a : Nat), coreOn s = true → s.srst.start = some a → (allTagsIn s = true ∨ a + 8192 ≤ s.clk.now) →
    ∃ t, exec .softResetDrainEnd s = .next t ∧ t.srst.start = none ∧
      (s.cmd.job = .softReset → t.cmd.busy = false ∧ t.cmd.done = true ∧ t.cmd.code = 0) ∧ noTagsAtAll t = true ∧
      (∀ ch, ch ∉ startList s.bs.loaded → (chan t ch).st = .idle) ∧
      (∀ n, (line t n).cnt = 0 ∧ (line t n).ovf = false) ∧ t.clk = s.clk ∧ KeepsMemory s t

/-! ### Gennal: updates, digests, commits (13, 11, 15) -/

/-- COMMIT_APPLY on a commit armed for T (11 R303, R304, Table 11.6): two ticks before T its peg commit is formed, with the
ports and the PRIO of COMMIT_SEL; at T the epoch becomes E, with ROUTE the routes become what the shadows held at the end of the
ccyc before, and each selected tile of the census whose checker is out of reset is asked to apply; ARMED falls when nothing is
left to wait for. Shown where nothing was changed since the arming (11 R305). -/
def Obligations.ArmedCommitsTakeEffect : Prop :=
  ∀ s : State, coreOn s = true → s.com.armed = true → s.com.selL = s.com.sel → s.com.gatesL = s.com.gates →
    s.com.snapR = oldShadow s →
    (s.com.pegs = false → s.com.main = false → s.clk.ridge.toNat < s.com.t.toNat → s.com.t.toNat ≤ s.clk.ridge.toNat + 2 →
      ∃ t, exec .commitApply s = .next t ∧ t.com.pegs = true ∧ t.com.armed = true ∧ t.dig = s.dig ∧ t.routes = s.routes ∧
        ((fld s.com.sel 0 8 : BitVec 8) ≠ 0 ∨ bit s.com.sel 8 = true →
          ∃ c ∈ t.pegCommits, c.wrap = commitWrap s ∧ (bit s.com.sel 8 = true → c.prio = true ∧ c.armedPrio = true) ∧
            ∀ n, n < 8 → bit s.com.sel n = true → c.ports.getLsbD n = true ∧ c.armed.getLsbD n = true) ∧
        t.tiles = s.tiles ∧ t.chans = s.chans ∧ KeepsMemory s t) ∧
    (s.com.pegs = true → s.com.main = false → s.com.wrap = none → s.com.t.toNat ≤ s.clk.ridge.toNat →
      ∃ t, exec .commitApply s = .next t ∧ t.dig.epoch = s.com.ep ∧ t.dig.recPend = true ∧
        t.routes = (if bit s.com.sel 9 then oldShadow s else s.routes) ∧ t.shadow = s.shadow ∧
        (s.com.gates &&& s.gate.map = 0 → t.com.armed = false) ∧
        (∀ g, g < 128 → s.com.gates.getLsbD g = true → present s g = true → (tile s g).chkOn = true → s.gate.rstN = true →
          (tile t g).apply = true ∧ (tile t g).rules = (tile s g).rules ∧ t.com.armed = true) ∧
        t.chans = s.chans ∧ KeepsMemory s t)

/-- GATE_UPDATE of a tile of the census sends GATE_STAGE in 45 STAGE beats to its staging buffer and an APPLY, and waits for APPLY_DONE;
GATE_UPDATE_STAGE_ONLY completes and keeps the quads as the tile's pending shadow; the rules in force and the shadow do not
change yet. A tile that is absent or whose checker is in reset, and a ring failure, fail it with 0x0E (10 R263; 13 R339).
PEG_UPDATE of used ports: from CMD_BUF it fills their peg shadows, where no peg word is malformed; it waits for the commit wrap,
and completes at once where it commits nothing; a port not in use fails it with 0x02 (07 R202). ROUTE_UPDATE makes every route
shadow, as at the end of the ccyc before, the route in force and advances the epoch (15 R384, R385). DIGEST asks for a rehash;
REHASH_DONE ends the rehash in service, where no RESTRUCTURE waits for it, with the digest of the active configuration, which completes a DIGEST with MATCH or makes
the answer of the roll call it was begun for fresh (11 R300); DIGEST_REC_UPDATE takes a pending record once no commit is half made and the
SHA-256 unit serves no rehash (11 R299; 13 R339, R346). -/
def Obligations.ConfigurationUpdates : Prop :=
  (∀ (s : State) (tok : Byte) (g : TileNo), accepts s = true →
    (present s g.toNat = true → (tile s g.toNat).chkOn = true → s.gate.rstN = true →
      (∃ t, exec (.gateUpdate tok g 0) s = .next t ∧ InProgress tok 9 t ∧ t.cmd.job = .gateUpdate g.toNat false ∧
        tile t g.toNat = { tile s g.toNat with staging := s.gate.stage, oldRules := none, apply := true } ∧
        t.gate.tx = s.gate.tx ++ (ruleQuads s.gate.stage).map (fun x => ringBeat .stage g.toNat x.1 x.2.1 x.2.2) ++
          [ringBeat .apply g.toNat 0 0 0] ∧
        (∀ k, k ≠ g.toNat → tile t k = tile s k) ∧ t.gate.shadow = s.gate.shadow ∧ get none t.gate.pendSh g.toNat = none ∧
        t.dig = s.dig ∧ t.chans = s.chans ∧ KeepsMemory s t) ∧
      (∃ t, exec (.gateUpdateStageOnly tok ⟨g, none⟩ 0) s = .next t ∧ Ended tok 9 0 {} t ∧
        tile t g.toNat = { tile s g.toNat with staging := s.gate.stage, oldRules := none } ∧
        t.gate.tx = s.gate.tx ++ (ruleQuads s.gate.stage).map (fun x => ringBeat .stage g.toNat x.1 x.2.1 x.2.2) ∧
        get none t.gate.pendSh g.toNat = some s.gate.stage ∧ t.gate.shadow = s.gate.shadow ∧ t.chans = s.chans ∧
        t.dig = { s.dig with recPend := true } ∧ KeepsMemory s t) ∧
      ∀ w, ∃ t, exec (.gateUpdateStageOnly tok ⟨g, some w⟩ 0) s = .next t ∧ Ended tok 9 14 {} t ∧
        t.irq.cause.getLsbD 35 = true ∧ t.gate.ringValid = true ∧ (tile t g.toNat).rules = (tile s g.toNat).rules ∧
        t.gate.shadow = s.gate.shadow ∧ get none t.gate.pendSh g.toNat = none ∧ t.dig = s.dig ∧ t.chans = s.chans ∧ KeepsMemory s t) ∧
    (present s g.toNat = false ∨ (tile s g.toNat).chkOn = false →
      (∃ t, exec (.gateUpdate tok g 0) s = .next t ∧ Ended tok 9 14 {} t ∧ t.tiles = s.tiles ∧ t.gate = s.gate) ∧
      ∀ f, ∃ t, exec (.gateUpdateStageOnly tok ⟨g, f⟩ 0) s = .next t ∧ Ended tok 9 14 {} t ∧ t.tiles = s.tiles ∧
        t.gate = s.gate)) ∧
  (∀ (s : State) (tok : Byte) (ports : BitVec 8) (prio fromBuf : Bool), accepts s = true →
    (fromBuf = true → ∀ n k, n < 8 → k < 64 → ports.getLsbD n = true → pegBad (bufPeg s n k) = false) →
    ((∀ n, n < 8 → ports.getLsbD n = true → (port s n).used = true) →
      (ports ≠ 0 ∨ prio = true →
        ∃ t, exec (.pegUpdate tok ports prio fromBuf 0) s = .next t ∧ InProgress tok 10 t ∧
          t.cmd.job = .pegUpdate (commitWrap s) ports fromBuf ∧ (∃ c ∈ t.pegCommits, c.wrap = commitWrap s) ∧
          t.pegAct = s.pegAct ∧ t.chans = s.chans ∧ KeepsMemory s t ∧
          ∀ n k, n < 8 → k < 64 → get 0 t.pegSh (pegKey n k) =
            if fromBuf = true ∧ ports.getLsbD n = true then BitVec.ofNat 16 (bufPeg s n k) else get 0 s.pegSh (pegKey n k)) ∧
      (ports = 0 → prio = false →
        ∃ t, exec (.pegUpdate tok ports prio fromBuf 0) s = .next t ∧ Ended tok 10 0 {} t ∧
          t.dig.epoch = s.dig.epoch + 1 ∧ t.pegSh = s.pegSh ∧ t.pegCommits = s.pegCommits)) ∧
    (∀ n, n < 8 → ports.getLsbD n = true → (port s n).used = false →
      ∃ t, exec (.pegUpdate tok ports prio fromBuf 0) s = .next t ∧ Ended tok 10 2 {} t ∧ t.pegSh = s.pegSh)) ∧
  (∀ (s : State) (tok : Byte), accepts s = true →
    (∃ t, exec (.routeUpdate tok) s = .next t ∧ Ended tok 11 0 {} t ∧ t.routes = oldShadow s ∧ t.shadow = s.shadow ∧
      t.dig.epoch = s.dig.epoch + 1 ∧ t.dig.recPend = true ∧ t.chans = s.chans ∧ KeepsMemory s t) ∧
    ∃ t, exec (.digest tok) s = .next t ∧ InProgress tok 12 t ∧ t.cmd.job = .digest ∧
      t.dig = { s.dig with users := s.dig.users ++ [.digest] } ∧ t.chans = s.chans ∧ KeepsMemory s t) ∧
  ∀ s : State, coreOn s = true →
    (∀ u rest, s.dig.users = u :: rest → (∀ c i x n k, s.cmd.job ≠ .restructureWait c i x n k) →
      ∃ t, exec .rehashDone s = .next t ∧ t.dig = { s.dig with users := rest, act := digestOf s } ∧
        (u = .roll → t.roll = { s.roll with fresh := true }) ∧ (u = .oldRoll → t.roll = s.roll) ∧
        (u = .digest → t.roll = s.roll ∧ (s.cmd.job = .digest → t.cmd.busy = false ∧ t.cmd.done = true ∧ t.cmd.code = 0 ∧
          t.cmd.res = { r0 := if digestOf s = s.dig.recd then 1 else 0 })) ∧ t.chans = s.chans ∧ KeepsMemory s t) ∧
    (s.dig.recPend = true → (s.com.armed = false ∨ s.com.main = false) → s.dig.users = [] →
      exec .digestRecUpdate s = .next { s with dig := { s.dig with recd := digestOf s, recPend := false } }) ∧
    (s.dig.users ≠ [] → exec .digestRecUpdate s = .next s)

/-! ### Gennal: the log, time, roll calls, tests (13) -/

/-- READ_LOG copies the N oldest fault-log entries, or as many as the log holds if that is fewer, into CMD_BUF: entry k at 0x10
× k, in the word layout of Tables 9.13 and 9.14. With POP 1 it then frees each entry copied, as FLOG_POP does (13 R344). The
rest of CMD_BUF stays, and RES0 counts the entries. -/
def Obligations.ReadLogCopiesTheOldestEntries : Prop :=
  ∀ (s : State) (tok : Byte) (n : BitVec 7) (pop : Bool), accepts s = true → 1 ≤ n.toNat → n.toNat ≤ 64 →
    ∃ t, exec (.readLog tok n pop 0) s = .next t ∧
      Ended tok 15 0 { r0 := BitVec.ofNat 32 (min n.toNat s.flog.entries.length) } t ∧
      (∀ k e, k < n.toNat → s.flog.entries[k]? = some e → ∀ w, w < 4 → readWord t.cmd.buf (16 * k + 4 * w) = logWord e w) ∧
      (∀ a, 16 * min n.toNat s.flog.entries.length ≤ a → readByte t.cmd.buf a = readByte s.cmd.buf a) ∧
      t.flog.entries = (if pop then s.flog.entries.drop n.toNat else s.flog.entries) ∧
      (pop = false → t.flog = s.flog) ∧ t.flog.lost = s.flog.lost ∧ t.chans = s.chans ∧ t.prog = s.prog

/-- COMMIT_AT (13 R340; 11 R303) arms a commit for an instant whose tick T - 2 is still to come, latching the selections; an
instant too late fails with 0x0F and sets COMMIT_MISSED, with a commit armed too, the lowest code being reported (Table 13.3; that the miss
is then counted and no frame sent is the model's reading, log entry 17, DEDUCED); with a commit armed a later one fails with 0x10; one
more than 2^46 ticks ahead fails with 0x02, on a member with 0x03. SET_TIME fails on a member only, and sets the time 8 CFG_CLK cycles on. ROLLCALL starts a round
on a master or standalone instance that runs none: ROUND advances, the results are cleared, its slot base is TR_LEAD ticks on, where
TR_LEAD is at most 4,194,304 (else 0x02); it completes once ROLL is sent (11 R300; 13 Table 13.2, R340), and in its own step where nothing
is downstream, the model's reading (log entry 38, DEDUCED). SELFTEST: tests 1 to 3 need
an idle engine, else it fails with 0x07; the tests take their bound (the model's choice, log entry 46); then it fails with 0x12
and the failing tests in RES0, or completes; test 2 leaves every context at its reset values (13 R343). CMD_RESERVED_OPCODE
fails with 0x01 before it takes any effect, and so does every command in whose argument words a bit that Table 13.2 leaves unnamed is set
(13 R336); a write of CMD_CTL while BUSY is 1 is dropped with LOST set, whatever it
names (13 R333). -/
def Obligations.OtherGennalCommands : Prop :=
  (∀ (s : State) (tok : Byte) (u : BitVec 64) (e : Word), accepts s = true →
    (u.toNat ≤ s.clk.ridge.toNat + 2 ^ 46 → s.gl.role ≠ .member →
      (armable s u = true → s.com.armed = false →
        ∃ t, exec (.commitAt tok u e) s = .next t ∧ Ended tok 4 0 {} t ∧ t.com.armed = true ∧ t.com.t = u ∧ t.com.ep = e ∧
          t.com.selL = s.com.sel ∧ t.com.gatesL = s.com.gates ∧ t.dig = { s.dig with recPend := true } ∧ t.chans = s.chans ∧
          KeepsMemory s t) ∧
      (armable s u = true → s.com.armed = true →
        ∃ t, exec (.commitAt tok u e) s = .next t ∧ Ended tok 4 16 {} t ∧ t.com = s.com ∧ t.gl = s.gl ∧ t.dig = s.dig) ∧
      (armable s u = false →
        ∃ t, exec (.commitAt tok u e) s = .next t ∧ Ended tok 4 15 {} t ∧ t.com = s.com ∧ t.dig = s.dig ∧
          t.irq.cause.getLsbD 57 = true ∧ (s.com.armed = true → t.gl = s.gl))) ∧
    (u.toNat ≤ s.clk.ridge.toNat + 2 ^ 46 → s.gl.role = .member →
      ∃ t, exec (.commitAt tok u e) s = .next t ∧ Ended tok 4 3 {} t ∧ t.com = s.com ∧ t.gl = s.gl) ∧
    (s.clk.ridge.toNat + 2 ^ 46 < u.toNat →
      ∃ t, exec (.commitAt tok u e) s = .next t ∧ Ended tok 4 2 {} t ∧ t.com = s.com) ∧
    (s.gl.role ≠ .member →
      ∃ t, exec (.setTime tok u) s = .next t ∧ Ended tok 16 0 {} t ∧
        t.clk = { s.clk with setTime := some (s.clk.now + 32, u) } ∧ t.chans = s.chans ∧ KeepsMemory s t) ∧
    (s.gl.role = .member → ∃ t, exec (.setTime tok u) s = .next t ∧ Ended tok 16 3 {} t ∧ t.clk = s.clk)) ∧
  (∀ (s : State) (tok : Byte) (e : Word) (lead : BitVec 24), accepts s = true → 4194304 < lead.toNat →
    ∃ t, exec (.rollcall tok e lead 0) s = .next t ∧ Ended tok 13 2 {} t ∧ t.roll = s.roll ∧ t.dig = s.dig ∧ t.gl = s.gl) ∧
  (∀ (s : State) (tok : Byte) (e : Word) (lead : BitVec 24), accepts s = true → lead.toNat ≤ 4194304 →
    (s.gl.role ≠ .member → s.roll.active = false →
      ∃ t r, exec (.rollcall tok e lead 0) s = .next t ∧ t.roll.active = true ∧ t.roll.done = false ∧
        t.roll.round = s.roll.round + 1 ∧ t.roll.e = e ∧
        t.roll.tr = s.clk.ridge + BitVec.ofNat 64 (rollLead s lead.toNat) ∧ t.roll.seen = [] ∧ t.roll.bad = [] ∧
        t.dig.users = s.dig.users.map pastRound ++ [.roll] ∧
        r = { r0 := (s.roll.round + 1).setWidth 32, r1 := fld t.roll.tr 0 32, r2 := fld t.roll.tr 32 32 } ∧
        (s.gl.dnUsed = false → Ended tok 13 0 r t) ∧
        (s.gl.dnUsed = true → InProgress tok 13 t ∧ t.cmd.job = .rollcall r ∧
          t.gl.dnLink.own = s.gl.dnLink.own ++ [rollFrame s (s.roll.round + 1) e (fld t.roll.tr 0 24)]) ∧
        t.chans = s.chans ∧ KeepsMemory s t) ∧
    (s.gl.role = .member → ∃ t, exec (.rollcall tok e lead 0) s = .next t ∧ Ended tok 13 3 {} t ∧ t.roll = s.roll) ∧
    (s.gl.role ≠ .member → s.roll.active = true →
      ∃ t, exec (.rollcall tok e lead 0) s = .next t ∧ Ended tok 13 17 {} t ∧ t.roll = s.roll)) ∧
  (∀ (s : State) (tok : Byte) (tests failing : BitVec 4), accepts s = true →
    (tests = 0 → ∃ t, exec (.selftest tok tests 0 failing) s = .next t ∧ Ended tok 14 0 {} t ∧ t.chans = s.chans ∧
      KeepsMemory s t) ∧
    (tests ≠ 0 → tests &&& 14 = 0 ∨ engineIdle s = true →
      ∃ t, exec (.selftest tok tests 0 failing) s = .next t ∧ InProgress tok 14 t ∧ t.chans = s.chans ∧ KeepsMemory s t ∧
        (selfTesting t = true ↔ tests &&& 14 ≠ 0) ∧
        ∀ u : State, u.cmd = t.cmd → s.clk.now + 4 * testCycles tests ≤ u.clk.now →
          (tests &&& failing = 0 → Ended tok 14 0 {} (jobsDue u)) ∧
          (tests &&& failing ≠ 0 → Ended tok 14 18 { r0 := (tests &&& failing).setWidth 32 } (jobsDue u)) ∧
          (tests.getLsbD 2 = false → (jobsDue u).chans = u.chans) ∧
          (tests.getLsbD 2 = true → canon ({} : Channel) u.chans = true →
            ∀ ch, chan (jobsDue u) ch = resetContext (chan u ch)) ∧ KeepsMemory u (jobsDue u)) ∧
    (tests &&& 14 ≠ 0 → engineIdle s = false →
      ∃ t, exec (.selftest tok tests 0 failing) s = .next t ∧ Ended tok 14 7 {} t ∧ t.chans = s.chans)) ∧
  (∀ (s : State) (tok op : Byte), accepts s = true → (op = 0 ∨ 0x10 < op.toNat) →
    ∃ t, exec (.cmdReservedOpcode tok op) s = .next t ∧ Ended tok op 1 {} t ∧ t.irq.cause.getLsbD 53 = true ∧
      { t with cmd := s.cmd, irq := s.irq, cfg := s.cfg } = s ∧ t.cmd.buf = s.cmd.buf) ∧
  (∀ (s : State) (tok : Byte), accepts s = true →
    let refused := fun (c : Instr) (op : Byte) => ∃ t, exec c s = .next t ∧ Ended tok op 1 {} t ∧ t.cmd.buf = s.cmd.buf ∧
      { t with cmd := s.cmd, irq := s.irq, cfg := s.cfg } = s
    (∀ nobump off n r, r ≠ 0 → refused (.loadProgramStore tok nobump off n r) 1 ∧ ∀ x, refused (.loadOptionArea tok nobump off n r x) 1) ∧
    (∀ b r x, r ≠ 0 → (∀ k, refused (.verify tok b r x k) 2) ∧ ∀ off n, refused (.verifyRead tok b off n r x) 2) ∧
    (∀ b r x y n k, r ≠ 0 → refused (.restructure tok b r x y n k) 3) ∧
    (∀ ch r, r ≠ 0 → refused (.park tok ch r) 5 ∧ refused (.resume tok ch r) 6 ∧ refused (.skip tok ch r) 7) ∧
    (∀ ch r, r ≠ 0 → refused (.resetCh tok ch r) 8 ∧ refused (.engineSoftReset tok ch r) 8) ∧
    (∀ g r, r ≠ 0 → refused (.gateUpdate tok g r) 9 ∧ ∀ f, refused (.gateUpdateStageOnly tok ⟨g, f⟩ r) 9) ∧
    (∀ p q b r, r ≠ 0 → refused (.pegUpdate tok p q b r) 10) ∧ (∀ e l r, r ≠ 0 → refused (.rollcall tok e l r) 13) ∧
    (∀ k r f, r ≠ 0 → refused (.selftest tok k r f) 14) ∧ ∀ n p r, r ≠ 0 → refused (.readLog tok n p r) 15) ∧
  ∀ (s : State) (tok op : Byte), hostTurn s = true → s.cmd.busy = true →
    ∃ t, exec (.cmdReservedOpcode tok op) s = .next t ∧ t.cmd = { s.cmd with lost := true } ∧
      { t with cmd := s.cmd, irq := s.irq, cfg := s.cfg } = s ∧ t.irq.cause = s.irq.cause

/-! ### Domains, brown-out, freezes (14, 17) -/

/-- SAFETY_CMP: a dual-rail mismatch freezes its unit from the next ccyc on, where none was frozen, and SAFETY_CMP is set at the first
TICK edge from then on; the safety event is raised where it is enabled, and the mismatch is written to the fault log, or the log was full
and LOG_LOST is set (17 R401, R407; 09 R243, Table 9.10): under a frozen scheduler CHANNEL_SELECT selects nothing; under a frozen arbiter ARBITER_DECISION
keeps the holder, the granted request and the requests. -/
def Obligations.MismatchesFreeze : Prop :=
  ∀ (s : State), coreOn s = true → s.mon.rails = [] → s.mon.frzSched = false → s.mon.frzArb = 0 → s.cfg.offered = [] →
    (∃ t, exec (.safetyCmp .scheduler) s = .next t ∧ { t with mon := s.mon } = s ∧ (tick t).mon.frzSched = true ∧
      (s.mon.safEn = true → s.mon.safEvt.toNat ∈ (tick t).ev.raised) ∧
      ((∃ e ∈ (tick t).flog.entries, e.kind = 9 ∧ e.detail = 0) ∨ (tick t).irq.cause.getLsbD 7 = true) ∧
      (s.clk.now % 2 = 1 → (tick t).irq.cause.getLsbD 6 = true) ∧ (s.clk.now % 2 = 0 → (tick t).irq.safetyPend = true) ∧
      exec .channelSelect (tick t) = .next (tick t)) ∧
    ∀ n : PortNo, ∃ t u, exec (.safetyCmp (.arbiter n)) s = .next t ∧ { t with mon := s.mon } = s ∧
      (tick t).mon.frzArb.getLsbD n.toNat = true ∧ (s.mon.safEn = true → s.mon.safEvt.toNat ∈ (tick t).ev.raised) ∧
      ((∃ e ∈ (tick t).flog.entries, e.kind = 9 ∧ e.detail = 1 ∧ e.port = n) ∨ (tick t).irq.cause.getLsbD 7 = true) ∧ exec (.arbiterDecision n) (tick t) = .next u ∧
      (port u n.toNat).holder = (port (tick t) n.toNat).holder ∧ (port u n.toNat).grant = (port (tick t) n.toNat).grant ∧
      (port u n.toNat).reqs = (port (tick t) n.toNat).reqs

/-- PD_REQ_RISE, sampled at a TICK edge (03 R86; 14 R364, Table 14.12): with a PIN channel among those that touch the domain it is
refused, PD_NACK and its cause set, and the domain stays open; without one the domain closes, and every channel that touches it is
parked, halted, or about to stop, one that stopped in this ccyc included (04 R99). In RETAIN and OFF_RDY the domain closes and is
answered, and so in DOZE, where the entry into DOZE has recorded no PIN channel for it; where it has, the domain is refused with that
channel (14 R369). QUIESCE_DRAINED answers a quiesce whose channels have stopped and whose domain holds no tag: PD_ACK at the second
TICK edge (03 R87; 01 R411). PD_REQ_FALL opens the domain and drops what was not yet answered; a PARKED channel with PARK_SRC 1 and
AUTO_RESUME 1 that then touches no closed domain becomes READY, and no other leaves its bivouac, in DOZE too (14 R368). VMON_LOW_ASSERT sets VMON and
the cause BROWNOUT at the TICK edge that begins the present ccyc, or at the next one (03 R84); NV writes stop from the ccyc after on, and a
LOAD of the option area not wholly presented ends with 0x09 once its responses are in (14 R370; 13 R342). VMON_LOW_DEASSERT clears VMON at
such an edge and changes nothing else: no channel is resumed (14 R371). That the row finds the first stage of the synchronizer passed is
the model's choice (log entry 10). -/
def Obligations.DomainsAndBrownOut : Prop :=
  (∀ (s : State) (n : Dom), s.pd.req.getLsbD n.toNat = false → s.clk.now % 2 = 0 →
    (coreOn s = true → (∃ ch ∈ quiesceSet (unstopAll s) n.toNat, (chan s ch).pin = true) →
      ∃ t, exec (.pdReqRise n) s = .next t ∧ t.pd.nackWant.getLsbD n.toNat = true ∧ t.pd.nackValid = true ∧
        t.irq.cause.getLsbD 51 = true ∧ t.pd.closed = s.pd.closed ∧ t.pd.req.getLsbD n.toNat = true ∧ t.chans = s.chans ∧
        KeepsMemory s t) ∧
    (coreOn s = true → s.before = [] → (∀ ch ∈ quiesceSet (unstopAll s) n.toNat, (chan s ch).pin = false) →
      ∃ t, exec (.pdReqRise n) s = .next t ∧ t.pd.closed.getLsbD n.toNat = true ∧ t.pd.req.getLsbD n.toNat = true ∧
        (∃ q ∈ t.pd.quiesces, q.dom = n.toNat) ∧
        (∀ ch ∈ quiesceSet (unstopAll s) n.toNat, (chan t ch).st ≠ .ready ∧
          ((chan t ch).st = .running ∨ (chan t ch).st = .waiting →
            (chan t ch).held ≠ none ∨ (chan t ch).parkPend = true)) ∧ KeepsMemory s t) ∧
    (s.pwr.st = .retain ∨ s.pwr.st = .offRdy → s.pwr.dozeW = none →
      ∃ t, exec (.pdReqRise n) s = .next t ∧ t.pd.closed.getLsbD n.toNat = true ∧ t.pd.ackWant.getLsbD n.toNat = true ∧
        t.chans = s.chans ∧ KeepsMemory s t) ∧
    (s.pwr.st = .doze →
      (∀ ch, get none s.pwr.dozePins n.toNat = some ch →
        ∃ t, exec (.pdReqRise n) s = .next t ∧ t.pd.nackWant.getLsbD n.toNat = true ∧ t.irq.cause.getLsbD 51 = true ∧
          (s.pd.nackValid = false → t.pd.nackDom = BitVec.ofNat 7 n.toNat ∧ t.pd.nackCh = BitVec.ofNat 10 ch) ∧
          t.pd.closed = s.pd.closed ∧ t.pd.ackWant = s.pd.ackWant ∧ t.chans = s.chans ∧ t.pwr = s.pwr ∧ KeepsMemory s t) ∧
      (get none s.pwr.dozePins n.toNat = none →
        ∃ t, exec (.pdReqRise n) s = .next t ∧ t.pd.closed.getLsbD n.toNat = true ∧ t.pd.ackWant.getLsbD n.toNat = true ∧
          t.pd.nackWant = s.pd.nackWant ∧ { t with pd := s.pd } = s))) ∧
  (∀ (s : State) (n : Dom), s.clk.now % 2 = 1 ∨ s.pwr.st = .off →
    exec (.pdReqRise n) s = .next { s with pd := { s.pd with pin := setBit s.pd.pin n.toNat true } } ∧
    exec (.pdReqFall n) s = .next { s with pd := { s.pd with pin := setBit s.pd.pin n.toNat false } }) ∧
  (∀ (s : State) (n : Dom) (q : Quiesce), s.pd.quiesces.find? (fun q => q.dom == n.toNat) = some q → q.chans = [] →
    tagsIn s none n.toNat = false →
    ∃ t, exec (.quiesceDrained n) s = .next t ∧ t.pd.ackWant.getLsbD n.toNat = true ∧ t.pd.ackOut = s.pd.ackOut ∧
      (∀ q ∈ t.pd.quiesces, q.dom ≠ n.toNat) ∧ { t with pd := s.pd } = s ∧
      (tickHandshakes (tickHandshakes t)).pd.ackOut.getLsbD n.toNat = true) ∧
  (∀ (s : State) (n : Dom), s.pd.req.getLsbD n.toNat = true → s.pwr.st ≠ .off → s.clk.now % 2 = 0 →
    ∃ t, exec (.pdReqFall n) s = .next t ∧ t.pd.req.getLsbD n.toNat = false ∧ t.pd.closed.getLsbD n.toNat = false ∧
      t.pd.ackWant.getLsbD n.toNat = false ∧ (∀ k, k ≠ n.toNat → t.pd.closed.getLsbD k = s.pd.closed.getLsbD k) ∧
      t.pwr.st = s.pwr.st ∧ t.pwr.dozePins = s.pwr.dozePins ∧
      (∀ q ∈ t.pd.quiesces, q.dom ≠ n.toNat) ∧
      (Inv s → ∀ ch, (chan s ch).st = .parked →
        ((chan t ch).st = .ready ↔ (chan s ch).parkSrc = true ∧ (chan s ch).autoResume = true ∧
          touchesClosed { s with pd := { s.pd with closed := setBit s.pd.closed n.toNat false } } ch = false)) ∧
      KeepsMemory s t) ∧
  (∀ s : State, s.pwr.st ≠ .off → s.clk.now % 2 = 0 →
    (s.mon.vmon = false →
      ∃ t, exec .vmonLowAssert s = .next t ∧ t.mon = { s.mon with vmonPin := true, vmonS1 := true, vmon := true } ∧
        t.irq.cause.getLsbD 56 = true ∧
        { t with mon := s.mon, irq := s.irq, cmd := s.cmd } = s ∧ (s.cfg.offered = [] → (tick t).mon.nvStop = true) ∧
        ((∀ o n p b st, s.cmd.job ≠ .bootWrite o n p b st) → t.cmd = s.cmd) ∧
        ∀ o n p b st, s.cmd.job = .bootWrite o n p b st →
          t.cmd = { s.cmd with job := .bootWrite o n p b true } ∧
          (b ≠ none → p < n →
            Ended t.cmd.token t.cmd.opcode 9 { r2 := BitVec.ofNat 32 (o + p) } (jobsDue t))) ∧
    exec .vmonLowDeassert s = .next { s with mon := { s.mon with vmonPin := false, vmonS1 := false, vmon := false } }) ∧
  (∀ s : State, s.pwr.st ≠ .off → s.clk.now % 2 = 1 →
    (∃ t, exec .vmonLowAssert s = .next t ∧ t.mon = { s.mon with vmonPin := true, vmonS1 := true } ∧ { t with mon := s.mon } = s ∧
      (s.cfg.offered = [] → (tick t).mon.vmon = true ∧ (s.mon.vmon = false → (tick t).irq.cause.getLsbD 56 = true))) ∧
    ∃ t, exec .vmonLowDeassert s = .next t ∧ t.mon = { s.mon with vmonPin := false, vmonS1 := false } ∧ { t with mon := s.mon } = s ∧
      (s.cfg.offered = [] → (tick t).mon.vmon = false)) ∧
  ∀ s : State, s.pwr.st = .off →
    exec .vmonLowAssert s = .next { s with mon := { s.mon with vmonPin := true } } ∧
    exec .vmonLowDeassert s = .next { s with mon := { s.mon with vmonPin := false } }

/-! ### Gates (10) -/

/-- The judgement of an access by GATE_CHECK (10 R251, R253, R257): the lowest-numbered matching region decides by PERM, then MID, then
domain; without a match the default map admits privileged accesses only, by direction, MID and domain; bad parity is denied first, with
detail 0x8. The detail of a denial is 1 by PERM, 2 by MID, 3 by domain; without a match 4 by privilege, 5 by direction, 6 by MID, 7 by
domain. -/
def Obligations.GatesJudgeByTheFirstMatch : Prop :=
  ∀ (r : Table Word) (q : GateReq),
    (q.par ≠ requestParity q → (verdict r q).deny = some 8) ∧
    (q.par = requestParity q →
      (∀ k, k < 32 → regionMatches r q.addr.toNat k = true → (∀ j, j < k → regionMatches r q.addr.toNat j = false) →
        (verdict r q).region.toNat = k ∧ (verdict r q).matched = true ∧
        ((verdict r q).deny = none ↔ bit (ruleWord r (4 * k)) (permBit q) = true ∧
          midAdmits r (fld (ruleWord r (4 * k + 1)) 20 3) q.mid = true ∧
          domAdmits r (fld (ruleWord r (4 * k + 1)) 24 3) q.dom = true) ∧
        (bit (ruleWord r (4 * k)) (permBit q) = false → (verdict r q).deny = some 1) ∧
        (bit (ruleWord r (4 * k)) (permBit q) = true →
          (midAdmits r (fld (ruleWord r (4 * k + 1)) 20 3) q.mid = false → (verdict r q).deny = some 2) ∧
          (midAdmits r (fld (ruleWord r (4 * k + 1)) 20 3) q.mid = true →
            domAdmits r (fld (ruleWord r (4 * k + 1)) 24 3) q.dom = false → (verdict r q).deny = some 3))) ∧
      ((∀ k, k < 32 → regionMatches r q.addr.toNat k = false) →
        (verdict r q).matched = false ∧
        ((verdict r q).deny = none ↔ q.priv = true ∧ bit (ruleWord r 176) (if q.write then 1 else 0) = true ∧
          midAdmits r (fld (ruleWord r 176) 4 3) q.mid = true ∧ domAdmits r (fld (ruleWord r 176) 8 3) q.dom = true) ∧
        (q.priv = false → (verdict r q).deny = some 4) ∧
        (q.priv = true → bit (ruleWord r 176) (if q.write then 1 else 0) = false → (verdict r q).deny = some 5) ∧
        (q.priv = true → bit (ruleWord r 176) (if q.write then 1 else 0) = true →
          (midAdmits r (fld (ruleWord r 176) 4 3) q.mid = false → (verdict r q).deny = some 6) ∧
          (midAdmits r (fld (ruleWord r 176) 4 3) q.mid = true →
            domAdmits r (fld (ruleWord r 176) 8 3) q.dom = false → (verdict r q).deny = some 7))))

/-- GATE_CHECK, one TCLK of a checker past its initial allowance: with EN 1 an admitted request leaves the input buffer for D and its
credit returns; a denied read owes its beats with the detail, and the denial is counted and logged; with EN 0 the request waits (10 R249,
R250, R253, R255, R260, R270). An admitted request is presented on D under the target's credits, a write with its beat 0 (02 R43).
GERR_RESPONSE answers a denied read with GERR, data 0, one beat in each TCLK that the target leaves free, and a denied write with one
response; what arrives on D is presented on U unchanged (R249, R255, R256). GATE_APPLY makes the staged rules those in force, with EN 1,
and reports it; the rules replaced are kept until the report arrives (R263). TILE_RESET leaves no region enabled and a default map that
forbids both directions, EN as DENY_AT_RESET says (R267); CHECKER_RESET_ASSERT leaves only the pending reports, and fails a GATE_UPDATE
of the tile (R245, R273). GATE_REPORT sets the cause of each flag and the tile's bit of GATE_EVT, and APPLY_DONE completes a GATE_UPDATE
(R263, R271). The report is a beat on GR_RX (R272). GATE_RING is recorded unless a record is held; a read whose beat is lost returns 0, and a GATE_UPDATE fails with 0x0E
(R273). -/
def Obligations.GateTilesAndRing : Prop :=
  (∀ (s : State) (g : TileNo) (q : GateReq), (tile s g.toNat).chkOn = true → (tile s g.toNat).up = true →
    (tile s g.toNat).input = [] → (tile s g.toNat).outq = [] → (tile s g.toNat).beats = [] → (tile s g.toNat).rqAllow = 0 →
    ((tile s g.toNat).en = true → (verdict (tile s g.toNat).rules q).deny = none →
      ∃ t, exec (.gateCheck g { quietIn with req := some q }) s = .next t ∧ OnlyTile g.toNat s t ∧
        (tile t g.toNat).dReq = none ∧ (tile t g.toNat).outq = [q] ∧ (tile t g.toNat).uRqCrd = true ∧
        (tile t g.toNat).input = [] ∧ (tile t g.toNat).rules = (tile s g.toNat).rules ∧
        (tile t g.toNat).denyCnt = (tile s g.toNat).denyCnt) ∧
    (∀ d, (tile s g.toNat).en = true → (verdict (tile s g.toNat).rules q).deny = some d → q.write = false →
      ∃ t, exec (.gateCheck g { quietIn with req := some q }) s = .next t ∧ OnlyTile g.toNat s t ∧
        (tile t g.toNat).outq = [] ∧ (tile t g.toNat).uRqCrd = true ∧
        (tile t g.toNat).answers = (tile s g.toNat).answers ++
          [{ write := false, tag := q.tag, detail := d, left := q.len.toNat + 1 }] ∧
        (tile t g.toNat).denyCnt = satAdd (tile s g.toNat).denyCnt 1 ∧
        ((tile s g.toNat).log.length < 4 → (tile t g.toNat).log.length = (tile s g.toNat).log.length + 1)) ∧
    ((tile s g.toNat).en = false →
      ∃ t, exec (.gateCheck g { quietIn with req := some q }) s = .next t ∧ OnlyTile g.toNat s t ∧
        (tile t g.toNat).outq = [] ∧ (tile t g.toNat).uRqCrd = false ∧ (tile t g.toNat).input = [q] ∧
        (tile t g.toNat).denyCnt = (tile s g.toNat).denyCnt)) ∧
  (∀ (s : State) (g : TileNo) (q : GateReq) (w : TileWrite) (b : WdBeat), (tile s g.toNat).chkOn = true →
    (tile s g.toNat).up = true → (tile s g.toNat).input = [] → (tile s g.toNat).outq = [q] →
    (q.write = false → (tile s g.toNat).writes = [] →
      (1 ≤ (tile s g.toNat).dRqCred →
        ∃ t, exec (.gateCheck g quietIn) s = .next t ∧ OnlyTile g.toNat s t ∧ (tile t g.toNat).dReq = some q ∧
          (tile t g.toNat).outq = [] ∧ (tile t g.toNat).dBeat = none) ∧
      ((tile s g.toNat).dRqCred = 0 →
        ∃ t, exec (.gateCheck g quietIn) s = .next t ∧ OnlyTile g.toNat s t ∧ (tile t g.toNat).dReq = none ∧
          (tile t g.toNat).outq = [q])) ∧
    (q.write = true → (tile s g.toNat).writes = [w] → (tile s g.toNat).beats = [b] → w.req = q → w.deny = none → w.beat = 0 →
      w.poison = false → b.par = wdParity b →
      (1 ≤ (tile s g.toNat).dRqCred → q.len.toNat + 1 ≤ (tile s g.toNat).dWdCred →
        ∃ t, exec (.gateCheck g quietIn) s = .next t ∧ OnlyTile g.toNat s t ∧ (tile t g.toNat).dReq = some q ∧
          (tile t g.toNat).dBeat = some b ∧ (tile t g.toNat).uWdCrd = true ∧ (tile t g.toNat).outq = []) ∧
      ((tile s g.toNat).dWdCred ≤ q.len.toNat →
        ∃ t, exec (.gateCheck g quietIn) s = .next t ∧ OnlyTile g.toNat s t ∧ (tile t g.toNat).dReq = none ∧
          (tile t g.toNat).dBeat = none ∧ (tile t g.toNat).outq = [q]))) ∧
  (∀ (s : State) (g : TileNo) (a : GateAnswer), (tile s g.toNat).chkOn = true → (tile s g.toNat).up = true →
    (tile s g.toNat).answers = [a] →
    (a.write = false →
      (∃ t b, exec (.gerrResponse g none none) s = .next t ∧ OnlyTile g.toNat s t ∧
        (tile t g.toNat).uRead = some b ∧ b.tag = a.tag ∧ b.resp = 2 ∧ b.detail = a.detail ∧ b.last = decide (a.left ≤ 1) ∧
        b.data = 0 ∧ b.chk = 0 ∧ rdParityOk b = true ∧
        (tile t g.toNat).answers = if a.left ≤ 1 then [] else [{ a with left := a.left - 1 }]) ∧
      ∀ b r, ∃ t, exec (.gerrResponse g (some b) (some r)) s = .next t ∧ OnlyTile g.toNat s t ∧ (tile t g.toNat).uRead = some b ∧
        (tile t g.toNat).uWrite = some r ∧ (tile t g.toNat).answers = [a]) ∧
    (a.write = true →
      ∃ t r, exec (.gerrResponse g none none) s = .next t ∧ OnlyTile g.toNat s t ∧
        (tile t g.toNat).uWrite = some r ∧ r.tag = a.tag ∧ r.resp = 2 ∧ r.detail = a.detail ∧ r.beat = 0 ∧ wrParityOk r = true ∧
        (tile t g.toNat).answers = [])) ∧
  (∀ (s : State) (g : TileNo),
    ((tile s g.toNat).chkOn = true → (tile s g.toNat).apply = true → ∀ i1 i2 i3 : GateIn,
      ∃ t, exec (.gateApply ⟨g, i1, i2, i3⟩) s = .next t ∧ OnlyTile g.toNat s t ∧ (tile t g.toNat).rules = (tile s g.toNat).staging ∧
        (tile t g.toNat).en = true ∧ (tile t g.toNat).drained = false ∧ (tile t g.toNat).reports.getLsbD 5 = true ∧
        (tile t g.toNat).apply = false ∧ (tile t g.toNat).oldRules = some (tile s g.toNat).rules) ∧
    (∀ deny, ∃ t, exec (.tileReset g deny) s = .next t ∧ OnlyTile g.toNat s t ∧ (tile t g.toNat).en = deny ∧
      (tile t g.toNat).chkOn = true ∧ (tile t g.toNat).log = [] ∧
      (s.gate.rstN = true → (tile t g.toNat).reports.getLsbD 4 = true) ∧
      (∀ q, (judge (tile t g.toNat).rules q).deny = some 4 ∨ (judge (tile t g.toNat).rules q).deny = some 5)) ∧
    (tileBusy s g.toNat = false →
      ∃ t, exec (.checkerResetAssert g) s = .next t ∧ (∀ k, k ≠ g.toNat → tile t k = tile s k) ∧
        tile t g.toNat = { ({} : Tile) with reports := (tile s g.toNat).reports } ∧
        t.com.tiles.getLsbD g.toNat = false ∧ { t with tiles := s.tiles, com := s.com } = s) ∧
    (∀ so, s.cmd.job = .gateUpdate g.toNat so →
      ∃ t, exec (.checkerResetAssert g) s = .next t ∧ t.cmd.busy = false ∧ t.cmd.code = 14 ∧ (tile t g.toNat).chkOn = false)) ∧
  ∀ (s : State) (g : TileNo), coreOn s = true →
    ((tile s g.toNat).reports ≠ 0 → present s g.toNat = true → s.gate.rstN = true →
      ((tile s g.toNat).reports &&& 56 = 0 →
        ∃ t, exec (.gateReport g) s = .next t ∧ (tile t g.toNat).reports = 0 ∧ t.gate.evt.getLsbD g.toNat = true ∧
          t.gate.rx = s.gate.rx ++ [ringBeat .report g.toNat 0 0 ((tile s g.toNat).reports.setWidth 128)] ∧
          ((tile s g.toNat).reports.getLsbD 0 = true → t.irq.cause.getLsbD 32 = true) ∧
          ((tile s g.toNat).reports.getLsbD 1 = true → t.irq.cause.getLsbD 33 = true) ∧
          ((tile s g.toNat).reports.getLsbD 2 = true → t.irq.cause.getLsbD 34 = true) ∧ t.chans = s.chans ∧
          (∀ k, k ≠ g.toNat → tile t k = tile s k) ∧ KeepsMemory s t) ∧
      ((tile s g.toNat).reports = 32 → s.cmd.job = .gateUpdate g.toNat false → s.gate.held = none →
        ∃ t, exec (.gateReport g) s = .next t ∧ t.cmd.busy = false ∧ t.cmd.done = true ∧ t.cmd.code = 0 ∧
          gateShadow t g.toNat = s.gate.stage ∧ t.dig.epoch = s.dig.epoch + 1 ∧ t.dig.recPend = true ∧
          (tile t g.toNat).oldRules = none ∧ (tile t g.toNat).rules = (tile s g.toNat).rules ∧ t.chans = s.chans ∧
          KeepsMemory s t)) ∧
    ∀ w k,
      ((∀ x so, s.cmd.job ≠ .gateUpdate x so) →
        ∃ t, exec (.gateRing w g k) s = .next t ∧ t.irq.cause.getLsbD 35 = true ∧ t.gate.ringValid = true ∧
          (s.gate.ringValid = false → t.gate.ringTile = g ∧ t.gate.ringKind = ringCode k ∧
            t.gate.ringTimeout = (w == .timeout) ∧ t.gate.ringUntaken = (w == .untaken) ∧ t.gate.ringParity = (w == .parity)) ∧
          (s.gate.ringValid = true → t.gate.ringTile = s.gate.ringTile ∧ t.gate.ringKind = s.gate.ringKind) ∧
          t.cfg = (if k = .read ∨ k = .readData then
            { s.cfg with ans := s.cfg.ans.map (fun a => { a with data := 0 }) } else s.cfg) ∧
          t.chans = s.chans ∧ t.tiles = s.tiles ∧ KeepsMemory s t) ∧
      ∀ x so, s.cmd.job = .gateUpdate x so → s.gate.held = none →
        ∃ t, exec (.gateRing w g k) s = .next t ∧ t.irq.cause.getLsbD 35 = true ∧ t.cmd.busy = false ∧ t.cmd.code = 14 ∧
          (tile t x).apply = false ∧ (tile t x).rules = (tile s x).oldRules.getD (tile s x).rules ∧
          t.gate.shadow = s.gate.shadow ∧ KeepsMemory s t

/-- Host accesses to a tile's block (10 R260, R261, R265, R270, R272 to R274). GATE_RULE_WRITE puts a rule word into shadow and tile
while the tile is drained with EN 0, and is dropped otherwise; GATE_CTL_WRITE writes EN to both; of a tile that is not on the ring the
beat comes back unmarked, with GATE_RING and its record; GATE_LOG_POP frees the oldest denial; TILE_REGISTER_READ of a word that the tile
holds sends a READ beat, which comes back as READ_DATA; of another word it answers from the block as its CFG_CLK cycle began, and sends
none; it changes no tile, where no report of the tile travels ahead of it. That the answer comes in the next CFG_CLK cycle is the model's
choice (log entries 36, 8). While a GATE_UPDATE of the tile is in
progress each of them is held, without an answer; a read held back is answered as the command ends, a report of the tile first (R261). -/
def Obligations.HostAccessesToTiles : Prop :=
  (∀ (s : State) (g : TileNo) (w : BitVec 9), s.gate.held = some (g.toNat, w.toNat, none) →
    (releaseHeld s).gate.held = none ∧
    (∃ a, (releaseHeld s).cfg.ans = some a ∧ a.err = false ∧ a.due = 4 * (s.clk.now / 4) + 4) ∧
    (tileHeld w.toNat = true → s.gate.rstN = true → present s g.toNat = true → (tile s g.toNat).reports ≠ 0 →
      (tile s g.toNat).reports &&& 48 = 0 →
      (tile (releaseHeld s) g.toNat).reports = 0 ∧
      (tileRec (releaseHeld s) g.toNat).drained = (if (tile s g.toNat).reports.getLsbD 3 then !(tileRec s g.toNat).en
        else (tileRec s g.toNat).drained))) ∧
  ∀ (s : State) (g : TileNo), hostTurn s = true →
    (tileBusy s g.toNat = false → s.gate.rstN = true →
      (∀ (w : BitVec 8) (v : Word), w.toNat ≤ 176 →
        ((tileRec s g.toNat).en = false → (tileRec s g.toNat).drained = true → present s g.toNat = true →
          (tile s g.toNat).chkOn = true → (tile s g.toNat).drained = true →
          ∃ t, exec (.gateRuleWrite g w v) s = .next t ∧
            ruleWord (gateShadow t g.toNat) w.toNat = v &&& ruleMask w.toNat ∧
            ruleWord (tile t g.toNat).rules w.toNat = v &&& ruleMask w.toNat ∧
            (∀ k, k ≠ w.toNat → ruleWord (tile t g.toNat).rules k = ruleWord (tile s g.toNat).rules k) ∧
            (∀ k, k ≠ g.toNat → tile t k = tile s k) ∧ t.chans = s.chans ∧ KeepsMemory s t) ∧
        ((tileRec s g.toNat).en = false → (tileRec s g.toNat).drained = true → present s g.toNat = false →
          ∃ t, exec (.gateRuleWrite g w v) s = .next t ∧ t.irq.cause.getLsbD 35 = true ∧ t.gate.ringValid = true ∧
            t.tiles = s.tiles ∧ t.chans = s.chans ∧ KeepsMemory s t) ∧
        ((tileRec s g.toNat).en = true ∨ (tileRec s g.toNat).drained = false →
          exec (.gateRuleWrite g w v) s = .next (answer 0 false s))) ∧
      (∀ en,
        (present s g.toNat = true → (tile s g.toNat).chkOn = true →
          ∃ t, exec (.gateCtlWrite g en) s = .next t ∧ (tile t g.toNat).en = en ∧ (tileRec t g.toNat).en = en ∧
            (tile t g.toNat).drained = ((tile s g.toNat).drained && !en) ∧
            (tile t g.toNat).rules = (tile s g.toNat).rules ∧ (∀ k, k ≠ g.toNat → tile t k = tile s k) ∧
            t.chans = s.chans ∧ KeepsMemory s t) ∧
        (present s g.toNat = false →
          ∃ t, exec (.gateCtlWrite g en) s = .next t ∧ t.irq.cause.getLsbD 35 = true ∧ t.gate.ringValid = true ∧
            t.tiles = s.tiles ∧ t.chans = s.chans ∧ KeepsMemory s t)) ∧
      (∀ pop, present s g.toNat = true → (tile s g.toNat).chkOn = true →
        ∃ t, exec (.gateLogPop g pop) s = .next t ∧ (∀ k, k ≠ g.toNat → tile t k = tile s k) ∧
          tile t g.toNat = { tile s g.toNat with log := if pop then (tile s g.toNat).log.tail else (tile s g.toNat).log } ∧
          { t with tiles := s.tiles, gate := s.gate, cfg := s.cfg } = s) ∧
      ∀ w : BitVec 9, (tile s g.toNat).reports = 0 ∨ tileHeld w.toNat = false →
        ∃ t, exec (.tileRegisterRead g w) s = .next t ∧ t.tiles = s.tiles ∧ t.chans = s.chans ∧
          t.cfg.ans = some { due := s.clk.now + 4, err := false
                             data := readTileWord (if w.toNat < 180 then atStart s else s) g.toNat w.toNat } ∧
          (tileHeld w.toNat = true → present s g.toNat = true →
            t.gate.tx = s.gate.tx ++ [ringBeat .read g.toNat (w.toNat / 4) 0 0] ∧
            t.gate.rx = s.gate.rx ++ [ringBeat .readData g.toNat (w.toNat / 4) 0 (quadOf s g.toNat (w.toNat / 4))]) ∧
          (tileHeld w.toNat = false → t.gate = s.gate) ∧ KeepsMemory s t) ∧
    (tileBusy s g.toNat = true →
      (∀ (w : BitVec 8) (v : Word), w.toNat ≤ 176 →
        ∃ t, exec (.gateRuleWrite g w v) s = .next t ∧ t.gate.held = some (g.toNat, w.toNat, some v) ∧ t.cfg.ans = none ∧
          { t with gate := s.gate, cfg := s.cfg } = s) ∧
      (∀ en, ∃ t v, exec (.gateCtlWrite g en) s = .next t ∧ t.gate.held = some (g.toNat, 0xC0, some v) ∧ bit v 0 = en ∧
        t.cfg.ans = none ∧ { t with gate := s.gate, cfg := s.cfg } = s) ∧
      (∀ pop, ∃ t v, exec (.gateLogPop g pop) s = .next t ∧ t.gate.held = some (g.toNat, 0xC5, some v) ∧ bit v 0 = pop ∧
        t.cfg.ans = none ∧ { t with gate := s.gate, cfg := s.cfg } = s) ∧
      ∀ w : BitVec 9, ∃ t, exec (.tileRegisterRead g w) s = .next t ∧ t.gate.held = some (g.toNat, w.toNat, none) ∧
        t.cfg.ans = none ∧ { t with gate := s.gate, cfg := s.cfg } = s)

/-! ### The guyline (11) -/

/-- SYNC on a member records Δ = Tp + D - Tc, saturated (11 R291, Table 11.4): not acquired and with 4 samples it acquires and steps;
acquired it does nothing up to 1 tick, slews up to 64, steps beyond; SLEW_CORRECTION makes one correction of a tick, on a member only, at
the next TICK edge, up to which the remainder stays (R280; the model's choice, log entry 24). SYNC_SEND and ECHO_REQ_SEND make frames
ready; ECHO_REQ is answered, ECHO_RSP gives a sample (R290). FRAME_SEND: a free port starts a pending mask, or the first frame by rank (own
before forwarded on a tie: the model's choice, log entry 37), with its CRC, at the TICK edge that begins the present ccyc or at the next
one, and is busy for 34 ticks; a ROLL sent completes its ROLLCALL (R282, R285, R288, R294; 13 R340). GUYLINE_LINK_UP, GUYLINE_LINK_DOWN: a
member that loses its upstream link clears ACQ, sends no SYNC and lets its time run (R287, R292; what else it clears is the model's choice,
log entry 37). GUYLINE_BAD_FRAME counts the bad frames among the nibbles received, code errors among them (R287; 01 R21; log entry 26).
GEVT_UP joins the pending mask; GEVT is forwarded and armed once received and checked, 34 ticks on, or found late and then delivered in the
next ccyc (R288, R295, R297; that a DEL in the tick of the check is on time is DEDUCED, log entry 26); GEVT_DELIVERY hands every mask that is due to CORE; STANDALONE_GEVT takes its own mask in the first ccyc of a tick
(R294 to R296, R414). COMMIT on a member is armed; ROLL starts a rehash and owes an answer, which ROLL_SLOT gives; ROLL_RSP is recorded by
the master, BUSY before the other flags (the model's choice, log entry 38), and ROLL_CLOSE names the failed instances, silent ones included
(R300, R301, R303). -/
def Obligations.TheGuylineCascade : Prop :=
  (∀ (s : State) (src : BitVec 16) (tp : BitVec 64), aoOn s = true → s.gl.role = .member →
    (s.gl.acq = true → (syncDelta s tp).natAbs ≤ 1 →
      ∃ t, exec (.sync src tp) s = .next t ∧ t.clk = s.clk ∧ t.gl.offset = satOffset (syncDelta s tp) ∧ t.chans = s.chans) ∧
    (s.gl.acq = true → 1 < (syncDelta s tp).natAbs → (syncDelta s tp).natAbs ≤ 64 →
      ∃ t, exec (.sync src tp) s = .next t ∧ t.clk.slewRem = syncDelta s tp ∧ t.clk.stepTo = s.clk.stepTo ∧
        t.clk.ridge = s.clk.ridge ∧ t.chans = s.chans) ∧
    (s.gl.acq = true → 64 < (syncDelta s tp).natAbs →
      ∃ t, exec (.sync src tp) s = .next t ∧ t.clk.stepTo = some (BitVec.ofInt 64 ((tp.toNat : Int) + hopDelay s + 1)) ∧
        t.clk.slewRem = 0 ∧ t.irq.cause.getLsbD 55 = true ∧ t.chans = s.chans) ∧
    (s.gl.acq = false → 4 ≤ s.gl.samples.length →
      ∃ t, exec (.sync src tp) s = .next t ∧ t.gl.acq = true ∧
        t.clk.stepTo = some (BitVec.ofInt 64 ((tp.toNat : Int) + hopDelay s + 1)) ∧ t.chans = s.chans) ∧
    (s.gl.acq = false → s.gl.samples.length < 4 →
      ∃ t, exec (.sync src tp) s = .next t ∧ t.gl.acq = false ∧ t.clk = s.clk)) ∧
  (∀ s : State, aoOn s = true → s.clk.slewRem ≠ 0 → s.clk.slewAt ≤ tickNow s → s.clk.adj = 0 →
    (s.gl.role = .member →
      ∃ t, exec .slewCorrection s = .next t ∧
        t.clk = { s.clk with adj := if 0 < s.clk.slewRem then 1 else -1, slewAt := s.clk.slewAt + 64 } ∧
        (s.clk.stepTo = none → s.clk.setTime = none → (tickRidge t.clk).slewRem = s.clk.slewRem - t.clk.adj ∧
          (tickRidge t.clk).ridge = s.clk.ridge + 1 + BitVec.ofInt 64 t.clk.adj) ∧ { t with clk := s.clk } = s) ∧
    (s.gl.role ≠ .member → exec .slewCorrection s = .next s)) ∧
  (∀ s : State, aoOn s = true →
    (s.gl.role = .master ∨ (s.gl.role = .member ∧ s.gl.acq = true) → s.gl.dnUsed = true → s.gl.nextSync ≤ tickNow s →
      ∃ t, exec .syncSend s = .next t ∧ t.gl.dnLink.own = s.gl.dnLink.own ++ [ownFrame s 1 true 0 0] ∧
        t.gl.nextSync = tickNow s + s.gl.syncPer.toNat ∧ { t with gl := s.gl } = s) ∧
    (s.gl.role = .member → s.gl.upLink.up = true → s.gl.upUsed = true → s.gl.samples.length < 4 →
      s.gl.nextEcho ≤ tickNow s →
      ∃ t, exec .echoReqSend s = .next t ∧ t.gl.upLink.own = s.gl.upLink.own ++ [ownFrame s 2 false 0 0] ∧
        t.gl.nextEcho = tickNow s + 256 ∧ { t with gl := s.gl } = s) ∧
    (∀ src t1, s.gl.dnUsed = true →
      ∃ t f, exec (.echoReq src t1) s = .next t ∧ t.gl.dnLink.own = s.gl.dnLink.own ++ [f] ∧ f.type = 3 ∧ f.dst = src ∧
        fld f.payload 0 24 = t1 ∧ { t with gl := s.gl } = s) ∧
    (∀ t1 turn, s.gl.role = .member → turn.toNat ≤ (fld s.clk.ridge 0 24 - t1).toNat →
      ((fld s.clk.ridge 0 24 - t1).toNat - turn.toNat) / 2 ≤ 2 ^ 22 →
      ∃ t, exec (.echoRsp s.gl.instId t1 turn) s = .next t ∧
        t.gl.samples = (((fld s.clk.ridge 0 24 - t1).toNat - turn.toNat) / 2 :: s.gl.samples).take 16 ∧
        { t with gl := s.gl } = s) ∧
    (∀ down f, s.clk.now % 2 = 0 → linkUsed s down = true → (linkOf s down).freeAt ≤ tickNow s →
      (maskFrame s down = none →
        bestBy (fun a b => decide (frameRank a.type < frameRank b.type)) ((linkOf s down).own ++ (linkOf s down).fwd) = some f →
        f.type ≠ 4 → f.type ≠ 5 →
        ∃ t, exec (.frameSend down) s = .next t ∧
          (linkOf t down).last = some (stamp s f, crc16 (frameBody (stamp s f))) ∧ (linkOf t down).txd = 0xD ∧
          (linkOf t down).freeAt = tickNow s + 34 ∧
          (linkOf t down).own.length + (linkOf t down).fwd.length + 1 =
            (linkOf s down).own.length + (linkOf s down).fwd.length ∧
          ((∀ r, s.cmd.job ≠ .rollcall r) ∨ f.type ≠ 7 → { t with gl := s.gl } = s) ∧
          (∀ r, s.cmd.job = .rollcall r → f.type = 7 →
            t.cmd.busy = false ∧ t.cmd.done = true ∧ t.cmd.code = 0 ∧ t.cmd.res = r)) ∧
      (maskFrame s down = some f →
        ∃ t, exec (.frameSend down) s = .next t ∧ (linkOf t down).last = some (f, crc16 (frameBody f)) ∧
          (linkOf t down).freeAt = tickNow s + 34 ∧ t.gl.mask = 0 ∧
          (s.gl.role = .master → (nextDel s, s.gl.mask) ∈ t.gl.armed) ∧ { t with gl := s.gl } = s)) ∧
    ∀ down, s.clk.now % 2 = 1 → linkUsed s down = true →
      (∃ t, exec (.frameSend down) s = .next t ∧ linkOf t down = { linkOf s down with start := true } ∧
        linkOf t (!down) = linkOf s (!down) ∧ { t with gl := s.gl } = s) ∧
      ((linkOf s down).start = true → s.cfg.offered = [] → s.gl.mask = 0 → (linkOf s down).own ≠ [] →
        (linkOf s down).freeAt ≤ tickNow s + 1 →
        (linkOf (tick s) down).start = false ∧ (linkOf (tick s) down).txd = 0xD ∧
          (linkOf (tick s) down).freeAt = tickNow s + 35)) ∧
  (∀ (s : State) (down : Bool), aoOn s = true →
    (linkUsed s down = true → (linkOf s down).up = false →
      ∃ t, exec (.guylineLinkUp down) s = .next t ∧ (linkOf t down).up = true ∧ linkOf t (!down) = linkOf s (!down) ∧
        { t with gl := s.gl } = s) ∧
    ((linkOf s down).up = true →
      ∃ t, exec (.guylineLinkDown down) s = .next t ∧ (linkOf t down).up = false ∧ t.irq.cause.getLsbD 54 = true ∧
        (down = false → t.gl.acq = false ∧ t.gl.samples = [] ∧ t.clk.slewRem = 0 ∧ t.clk.adj = 0 ∧ t.clk.stepTo = none ∧
          ∀ f ∈ t.gl.dnLink.own, f.type ≠ 1) ∧ t.clk.ridge = s.clk.ridge ∧ t.chans = s.chans ∧ KeepsMemory s t) ∧
    (linkUsed s down = true → ∀ l : List (BitVec 4),
      ∃ t, exec (.guylineBadFrame ⟨down, l⟩) s = .next t ∧ (linkOf t down).rx = l ∧
        t.gl.bad = (if hostWon 0x1C0A s then s.gl.bad else satAdd s.gl.bad (badFrames l.length l)) ∧
        (badFrames l.length l ≠ 0 → t.irq.cause.getLsbD 54 = true) ∧ { t with gl := s.gl, irq := s.irq } = s)) ∧
  (∀ (x : BitVec 4) (n : Nat) (l : List (BitVec 4)),
    (x ≠ 6 → x ≠ 0xD → badFrames (n + 1) (x :: l) = 1 + badFrames n l) ∧ badFrames (n + 1) (6 :: l) = badFrames n l ∧
    (32 ≤ l.length → badFrames (n + 1) (0xD :: l) = (if bodyBad (bodyOfNibbles (l.take 32)) then 1 else 0) +
      badFrames n (l.drop 32))) ∧
  (∀ s : State, aoOn s = true →
    (∀ src mask, s.gl.dnUsed = true →
      ∃ t, exec (.gevtUp src mask) s = .next t ∧ t.gl.mask = s.gl.mask ||| mask ∧ t.gl.armed = s.gl.armed ∧
        t.gl.dnLink.rx = frameNibbles { type := 4, bc := false, src := src, dst := 0, payload := mask.setWidth 72 } ∧
        t.gl.dnLink.own = s.gl.dnLink.own ∧ t.gl.dnLink.fwd = s.gl.dnLink.fwd ∧ { t with gl := s.gl } = s) ∧
    (∀ src mask del, s.gl.role = .member →
      ∃ t, exec (.gevt src mask del) s = .next t ∧
        t.gl.rxGevt = s.gl.rxGevt ++ [(tickNow s + 34, widen s del, mask)] ∧ t.gl.armed = s.gl.armed ∧
        (∃ f, t.gl.rxFwd = s.gl.rxFwd ++ [(tickNow s + 34, true, f)] ∧ f.type = 5 ∧ fld f.payload 0 64 = mask ∧
          (fld f.payload 64 8 : BitVec 8) ++ f.dst = del) ∧ t.gl.dnLink.fwd = s.gl.dnLink.fwd ∧ { t with gl := s.gl } = s) ∧
    (∀ at' down f, s.gl.rxFwd = [(at', down, f)] →
      (tickNow s < at' → queueReceived s = s) ∧
      (at' ≤ tickNow s → (queueReceived s).gl.rxFwd = [] ∧ (linkOf (queueReceived s) down).own = (linkOf s down).own ∧
        (linkUsed s down = true → (linkOf s down).fwd.length < 8 →
          (linkOf (queueReceived s) down).fwd = (linkOf s down).fwd ++ [f] ∧ (queueReceived s).gl.drop = s.gl.drop) ∧
        (linkUsed s down = true → 8 ≤ (linkOf s down).fwd.length →
          (linkOf (queueReceived s) down).fwd = (linkOf s down).fwd ∧
          (queueReceived s).gl.drop = (if hostWon 0x1C0A s then s.gl.drop else satAdd s.gl.drop 1)))) ∧
    (∀ last at' d m, s.gl.rxGevt = [(at', d, m)] →
      (tickNow s < at' → checkGevts last s = s) ∧
      (at' ≤ tickNow s → (checkGevts last s).gl.rxGevt = [] ∧
        (last.toNat < d.toNat → (d, m) ∈ (checkGevts last s).gl.armed ∧ (checkGevts last s).gl.lateDel = s.gl.lateDel) ∧
        (d.toNat ≤ last.toNat → (checkGevts last s).gl.lateDel = s.gl.lateDel ||| m ∧
          (checkGevts last s).gl.armed = s.gl.armed ∧
          (checkGevts last s).gl.late = (if hostWon 0x1C0A s then s.gl.late else satAdd s.gl.late 1)))) ∧
    (coreOn s = true → s.cfg.offered = [] →
      ∀ g, s.gl.lateDel.getLsbD g = true → (tick s).ev.gdelivered.getLsbD g = true) ∧
    (∃ t, exec .gevtDelivery s = .next t ∧
      t.gl.armed = s.gl.armed.filter (fun e => decide (s.clk.ridge.toNat < e.1.toNat)) ∧
      (coreOn s = true → ∀ e ∈ s.gl.armed, e.1.toNat ≤ s.clk.ridge.toNat →
        ∀ g, e.2.getLsbD g = true → t.ev.gdelivered.getLsbD g = true) ∧
      (∀ g, t.ev.gdelivered.getLsbD g = true → s.ev.gdelivered.getLsbD g = true ∨
        ∃ e ∈ s.gl.armed, e.1.toNat ≤ s.clk.ridge.toNat ∧ e.2.getLsbD g = true) ∧ KeepsMemory s t) ∧
    (s.gl.role = .standalone → s.gl.mask ≠ 0 → s.clk.now % 2 = 0 →
      ∃ t, exec .standaloneGevt s = .next t ∧ t.gl.mask = 0 ∧ t.gl.late = s.gl.late ∧ KeepsMemory s t ∧
        (s.gl.lead ≠ 0 → (s.clk.ridge + s.gl.lead.setWidth 64, s.gl.mask) ∈ t.gl.armed) ∧
        (s.gl.lead = 0 → coreOn s = true → t.ev.gdelivered = s.ev.gdelivered ||| s.gl.mask))) ∧
  ∀ s : State, coreOn s = true →
    (∀ src u e, s.gl.role = .member → s.com.armed = false → armable s (widen s u) = true →
      ∃ t, exec (.commit src u e) s = .next t ∧ t.com.armed = true ∧ t.com.t = widen s u ∧ t.com.ep = e ∧
        t.com.selL = s.com.sel ∧ t.com.gatesL = s.com.gates ∧ t.dig = s.dig ∧ t.chans = s.chans ∧ KeepsMemory s t) ∧
    (∀ src round e tr, s.gl.role = .member →
      ∃ t, exec (.roll src round e tr) s = .next t ∧ t.roll.due = some (round, e, widen s tr) ∧
        t.dig.users = s.dig.users.map pastRound ++ [.roll] ∧ t.chans = s.chans ∧ KeepsMemory s t) ∧
    (∀ round e tr, s.roll.due = some (round, e, tr) → tr.toNat + 64 * s.gl.instId.toNat ≤ s.clk.ridge.toNat →
      ∃ t, exec .rollSlot s = .next t ∧ t.roll.due = none ∧ t.chans = s.chans ∧ KeepsMemory s t ∧
        (s.gl.role = .member → s.gl.upUsed = true →
          ∃ f, t.gl.upLink.own = s.gl.upLink.own ++ [f] ∧ f.type = 8 ∧ fld f.payload 0 16 = round ∧
            fld f.payload 16 32 = s.dig.epoch) ∧
        (s.gl.role ≠ .member → s.roll.active = true → s.roll.round = round → s.gl.instId.toNat ∈ t.roll.seen)) ∧
    (∀ src round e d p b, s.gl.role = .master → s.gl.dnUsed = true → s.roll.active = true → s.roll.round = round →
      ∃ t, exec (.rollRsp src round e d p b) s = .next t ∧ src.toNat ∈ t.roll.seen ∧
        (src.toNat < s.gl.instCount.toNat → src.toNat ∉ s.roll.seen → d = true → p = true → b = false →
          t.roll.bad = s.roll.bad) ∧
        (src.toNat < s.gl.instCount.toNat → src.toNat ∉ s.roll.seen → b = true → (src.toNat, 5) ∈ t.roll.bad) ∧
        { t with roll := s.roll, gl := s.gl } = s) ∧
    (s.roll.active = true →
      s.roll.tr.toNat + 64 * s.gl.instCount.toNat + s.gl.tail.toNat ≤ s.clk.ridge.toNat →
      ∃ t, exec .rollClose s = .next t ∧ t.roll.active = false ∧ t.roll.done = true ∧
        (∀ id, id < s.gl.instCount.toNat → id ∉ s.roll.seen → (id, 4) ∈ t.roll.bad) ∧
        t.roll.named = t.roll.bad.take 16 ∧ (t.roll.bad ≠ [] → t.irq.cause.getLsbD 50 = true) ∧ t.chans = s.chans ∧
        KeepsMemory s t)

/-! ### The test port (17) -/

/-- TEST_MODE: TM, WRSTN and SCAN_EN are the levels given; with TM 0, and with WRSTN 0, which leaves WS_BYPASS in the WIR, the function
drives the outputs, and with WRSTN 0 no instruction of the wrapper has an effect (the model's choice, log entry 16); the isolation of a
domain without power, which TM 1 opens, closes again with TM 0 (17 R409). WS_BYPASS, as which a reserved encoding acts, and WS_CLAMP shift
WBY by one bit; WS_PRELOAD loads the boundary register, whose cells leave on WSO, and drives nothing; with TM 1 WS_EXTEST captures the
inputs, shifts the boundary register between WSI and WSO, and, as WS_CLAMP, drives the outputs from it, WS_SAFE from the isolation values,
and with TM 0 these have no effect; MBIST_STAT selects the result, which leaves on WSO (17 R408, Table 17.6; the order of cells and bits is
the model's choice, log entry 16). With TM 1, WP_INTEST under SCAN_EN 1 and MBIST_RUN leave the state of every domain at a free value (log
entry 16), the gate tiles and the inputs as they are; under SCAN_EN 0 WP_INTEST is only selected, the model's choice (log entry 16). The
result reads 0 while BIST runs, and from MBIST_DONE on DONE in bit 15 and one fail bit per memory in bits [5:0] (17 R409, R410). With TM 1
PORST_N and SYSRST_N have no effect (17 R409). -/
def Obligations.TheTestPort : Prop :=
  (∀ s : State,
    (∀ p, ∃ t, exec (.testMode p) s = .next t ∧ t.test.tm = p.tm ∧ t.test.wrstN = p.wrstN ∧ t.test.scanEn = p.scanEn ∧
      (coreIsOff s = false ∨ p.tm = s.test.tm → { t with test := s.test } = s) ∧
      (coreIsOff s = true → s.test.tm = true → p.tm = false → (∀ n, port t n = {}) ∧ t.gate.rstN = false ∧
        (s.pwr.st = .off → t.irq.out = 0 ∧ t.pd.ackOut = Config.ackTie ∧ t.cfg.ack = false)) ∧
      (p.tm = false ∨ p.wrstN = false → t.test.mode = .functional ∧ t.test.outs = none) ∧ (p.wrstN = false → t.test.wir = 0) ∧
      (p.tm = true → exec .porstN t = .next t ∧ exec .sysrstN t = .next t)) ∧
    (s.test.wrstN = true →
      (∀ b, ∃ t, exec (.wsBypass b) s = .next t ∧ t.test.wso = s.test.wby ∧ t.test.shifted = [s.test.wby] ∧ t.test.wby = b.wsi ∧
        t.test.mode = .functional ∧ t.test.outs = none ∧ t.test.wbr = s.test.wbr ∧ { t with test := s.test } = s) ∧
      (∀ b, ∃ t, exec (.wsPreload b) s = .next t ∧ t.test.wir = 2 ∧ t.test.wbr = b ∧ t.test.mode = .functional ∧
        t.test.outs = none ∧ t.test.shifted = bitList (shiftPath s.test.wbr) ∧ t.test.wby = s.test.wby ∧
        { t with test := s.test } = s) ∧
      ∃ t, exec .mbistStat s = .next t ∧ t.test.wir = 9 ∧ t.test.stat = s.test.stat ∧ t.test.mode = .functional ∧
        t.test.shifted = (List.range 16).map (fun k => s.test.stat.getLsbD k) ∧ { t with test := s.test } = s) ∧
    (s.test.tm = true → s.test.wrstN = true →
      (∀ x y, y = shiftPath { s.test.wbr with ins := inCells x.pins s } →
        ∃ t, exec (.wsExtest x) s = .next t ∧ t.test.wir = 1 ∧ t.test.mode = .boundary ∧
          t.test.wbr = ofShiftPath (shiftIn x.wsi y) ∧ t.test.outs = some (outsOf t.test.wbr.outs) ∧
          t.test.shifted = leaving x.wsi y ∧ (x.wsi = [] → t.test.wbr = { s.test.wbr with ins := inCells x.pins s }) ∧
          { t with test := s.test } = s) ∧
      (∀ b, ∃ t, exec (.wsClamp b) s = .next t ∧ t.test.wir = 3 ∧ t.test.mode = .boundary ∧
        t.test.outs = some (outsOf s.test.wbr.outs) ∧ t.test.wso = s.test.wby ∧ t.test.wby = b ∧
        t.test.wbr = s.test.wbr ∧ { t with test := s.test } = s) ∧
      ∃ t, exec .wsSafe s = .next t ∧ t.test.wir = 4 ∧ t.test.mode = .isolation ∧ t.test.outs = some safeOuts ∧
        t.test.wbr = s.test.wbr ∧ { t with test := s.test } = s) ∧
    (s.test.wrstN = false → (∀ b, exec (.wsBypass b) s = .next s) ∧ (∀ b, exec (.wsPreload b) s = .next s) ∧
      exec .mbistStat s = .next s) ∧
    (s.test.tm = false ∨ s.test.wrstN = false → (∀ l, exec (.wsExtest l) s = .next s) ∧ (∀ b, exec (.wsClamp b) s = .next s) ∧
      exec .wsSafe s = .next s ∧ (∀ w, exec (.wpIntest w) s = .next s) ∧ exec .mbistRun s = .next s)) ∧
  (∀ (b : Bool) (y : BitVec 8483), (shiftIn [b] y).getLsbD 8482 = b ∧
    (∀ k : Nat, k < 8482 → (shiftIn [b] y).getLsbD k = y.getLsbD (k + 1)) ∧ leaving [b] y = [y.getLsbD 0]) ∧
  (∀ (s : State) (p : InPins) (n : Nat), (n < 512 → (inCells p s).getLsbD (2817 + n) = (line s n).pin) ∧
    (n < 128 → (inCells p s).getLsbD (3329 + n) = s.pd.pin.getLsbD n)) ∧
  (∀ s : State, s.test.tm = true → s.test.wrstN = true →
    (s.test.scanEn = false → ∀ w, ∃ t, exec (.wpIntest w) s = .next t ∧ t.test.wir = 5 ∧ t.test.wpi = w ∧
      t.test.mode = .functional ∧ { t with test := s.test } = s) ∧
    (s.test.scanEn = true → ∀ w, ∃ t, exec (.wpIntest w) s = .next t ∧ t.test.wir = 5 ∧ t.test.wpi = w ∧ t.test.tm = true ∧ t.tiles = s.tiles ∧
      t.pd.pin = s.pd.pin ∧ t.mon.vmonPin = s.mon.vmonPin ∧ t.clk.now = s.clk.now ∧ Inv t) ∧
    ∃ t, exec .mbistRun s = .next t ∧ t.test.wir = 8 ∧ t.test.run = true ∧ t.test.stat = 0 ∧ t.tiles = s.tiles ∧ Inv t) ∧
  ∀ (s : State) (fail : BitVec 6), s.test.run = true →
    ∃ t, exec (.mbistDone fail) s = .next t ∧ t.test.run = false ∧ t.test.stat.getLsbD 15 = true ∧
      fld t.test.stat 0 6 = fail ∧ fld t.test.stat 6 9 = (0 : BitVec 9) ∧ { t with test := s.test } = s
end

