-- ==== Sys2Proof/Laws/Gates.lean ====
section
/-! SUPPORT. What DRAINED's part of a TCLK leaves as it was (10 R260), field by field. -/

namespace Sys2Proof.Machine

variable (t : Tile)

@[simp] theorem drainTclk_chkOn : (drainTclk t).chkOn = t.chkOn := by unfold drainTclk; (repeat' split) <;> rfl
@[simp] theorem drainTclk_en : (drainTclk t).en = t.en := by unfold drainTclk; (repeat' split) <;> rfl
@[simp] theorem drainTclk_denyRst : (drainTclk t).denyRst = t.denyRst := by unfold drainTclk; (repeat' split) <;> rfl
@[simp] theorem drainTclk_rules : (drainTclk t).rules = t.rules := by unfold drainTclk; (repeat' split) <;> rfl
@[simp] theorem drainTclk_staging : (drainTclk t).staging = t.staging := by unfold drainTclk; (repeat' split) <;> rfl
@[simp] theorem drainTclk_denyCnt : (drainTclk t).denyCnt = t.denyCnt := by unfold drainTclk; (repeat' split) <;> rfl
@[simp] theorem drainTclk_lost : (drainTclk t).lost = t.lost := by unfold drainTclk; (repeat' split) <;> rfl
@[simp] theorem drainTclk_log : (drainTclk t).log = t.log := by unfold drainTclk; (repeat' split) <;> rfl
@[simp] theorem drainTclk_input : (drainTclk t).input = t.input := by unfold drainTclk; (repeat' split) <;> rfl
@[simp] theorem drainTclk_up : (drainTclk t).up = t.up := by unfold drainTclk; (repeat' split) <;> rfl
@[simp] theorem drainTclk_rqAllow : (drainTclk t).rqAllow = t.rqAllow := by unfold drainTclk; (repeat' split) <;> rfl
@[simp] theorem drainTclk_wdAllow : (drainTclk t).wdAllow = t.wdAllow := by unfold drainTclk; (repeat' split) <;> rfl
@[simp] theorem drainTclk_dRqCred : (drainTclk t).dRqCred = t.dRqCred := by unfold drainTclk; (repeat' split) <;> rfl
@[simp] theorem drainTclk_dWdCred : (drainTclk t).dWdCred = t.dWdCred := by unfold drainTclk; (repeat' split) <;> rfl
@[simp] theorem drainTclk_beats : (drainTclk t).beats = t.beats := by unfold drainTclk; (repeat' split) <;> rfl
@[simp] theorem drainTclk_writes : (drainTclk t).writes = t.writes := by unfold drainTclk; (repeat' split) <;> rfl
@[simp] theorem drainTclk_outq : (drainTclk t).outq = t.outq := by unfold drainTclk; (repeat' split) <;> rfl
@[simp] theorem drainTclk_answers : (drainTclk t).answers = t.answers := by unfold drainTclk; (repeat' split) <;> rfl
@[simp] theorem drainTclk_apply : (drainTclk t).apply = t.apply := by unfold drainTclk; (repeat' split) <;> rfl
@[simp] theorem drainTclk_dReq : (drainTclk t).dReq = t.dReq := by unfold drainTclk; (repeat' split) <;> rfl
@[simp] theorem drainTclk_dBeat : (drainTclk t).dBeat = t.dBeat := by unfold drainTclk; (repeat' split) <;> rfl
@[simp] theorem drainTclk_uRead : (drainTclk t).uRead = t.uRead := by unfold drainTclk; (repeat' split) <;> rfl
@[simp] theorem drainTclk_uWrite : (drainTclk t).uWrite = t.uWrite := by unfold drainTclk; (repeat' split) <;> rfl
@[simp] theorem drainTclk_uRqCrd : (drainTclk t).uRqCrd = t.uRqCrd := by unfold drainTclk; (repeat' split) <;> rfl
@[simp] theorem drainTclk_uWdCrd : (drainTclk t).uWdCrd = t.uWdCrd := by unfold drainTclk; (repeat' split) <;> rfl

/-- A TCLK under U_PORT_EN 1 that is not the first begins with nothing presented and all else, but DRAINED, as it was. -/
theorem beginTclk_up (h : t.up = true) :
    beginTclk true t = drainTclk { t with dReq := none, dBeat := none, uRqCrd := false, uWdCrd := false } := by
  simp [beginTclk, h]

end Sys2Proof.Machine
end

