-- ==== Sys2Proof/Laws/Tables.lean ====
section
/-! SUPPORT. The laws of sparse tables and of byte memory: what a read gives after a write, and that every operation keeps
the canonical form. -/

namespace Sys2Proof.Machine

variable {α : Type} [DecidableEq α] {d : α}

omit [DecidableEq α] in
@[simp] theorem get_nil (i : Nat) : get d [] i = d := rfl

omit [DecidableEq α] in
theorem get_dropWhile (t : Table α) (i j : Nat) :
    get d (t.dropWhile (fun e => decide (e.1 ≤ i))) j = if j ≤ i then
      get d (t.dropWhile (fun e => decide (e.1 ≤ i))) j else get d t j := by
  split
  · rfl
  · rename_i h
    induction t with
    | nil => rfl
    | cons e r ih =>
      obtain ⟨k, w⟩ := e
      by_cases hk : k ≤ i
      · have h1 : ¬ j < k := by omega
        have h2 : j ≠ k := by omega
        simp only [List.dropWhile, hk, decide_true, ih, get, h1, h2, if_false]
      · simp [List.dropWhile, hk]

omit [DecidableEq α] in
theorem get_dropWhile_le (t : Table α) (i j : Nat) (h : j ≤ i) :
    get d (t.dropWhile (fun e => decide (e.1 ≤ i))) j = d := by
  induction t with
  | nil => rfl
  | cons e r ih =>
    obtain ⟨k, w⟩ := e
    by_cases hk : k ≤ i
    · simpa [List.dropWhile, hk] using ih
    · have : j < k := by omega
      simp [List.dropWhile, hk, get, this]

/-- A read after a write gives the value written at its key and the old one elsewhere, whatever the table. -/
theorem get_put (t : Table α) (i j : Nat) (v : α) : get d (put d t i v) j = if j = i then v else get d t j := by
  induction t with
  | nil =>
    unfold put
    by_cases hv : v = d
    · simp [hv, get]
    · simp only [hv, if_false, get]
      by_cases h1 : j < i
      · simp [h1, Nat.ne_of_lt h1]
      · simp [h1]
  | cons e r ih =>
    obtain ⟨k, w⟩ := e
    unfold put
    by_cases h1 : i < k
    · simp only [h1, if_true]
      by_cases hv : v = d
      · simp only [hv, if_true]
        by_cases hj : j = i
        · subst hj; simp [get, h1]
        · simp [hj]
      · simp only [hv, if_false, get]
        by_cases hj : j < i
        · have : j < k := by omega
          simp [hj, Nat.ne_of_lt hj, this]
        · by_cases hji : j = i
          · subst hji; simp
          · simp [hj, hji]
    · by_cases h2 : i = k
      · subst h2
        simp only [Nat.lt_irrefl, if_false, if_true]
        by_cases hv : v = d
        · simp only [hv, if_true]
          by_cases hj : j = i
          · subst hj; simpa using get_dropWhile_le (d := d) r j j (Nat.le_refl j)
          · by_cases hl : j < i
            · rw [get_dropWhile_le r i j (by omega)]; simp [hj, get, hl]
            · rw [get_dropWhile]
              have : ¬ j ≤ i := by omega
              simp [this, hj, get, hl]
        · simp only [hv, if_false, get]
          by_cases hj : j = i
          · subst hj; simp
          · simp [hj]
      · simp only [h1, h2, if_false, get, ih]
        by_cases hk : j < k
        · have : j ≠ i := by omega
          simp [hk, this]
        · by_cases hjk : j = k
          · have : j ≠ i := by omega
            subst hjk; simp [this]
          · simp [hk, hjk]

@[simp] theorem get_put_self (t : Table α) (i : Nat) (v : α) : get d (put d t i v) i = v := by simp [get_put]

theorem get_put_ne (t : Table α) {i j : Nat} (v : α) (h : j ≠ i) : get d (put d t i v) j = get d t j := by
  simp [get_put, h]

theorem canon_tail {e : Nat × α} {t : Table α} (h : canon d (e :: t) = true) : canon d t = true := by
  cases t with
  | nil => rfl
  | cons f r => simp only [canon, Bool.and_eq_true] at h; exact h.2

theorem canon_head {e : Nat × α} {t : Table α} (h : canon d (e :: t) = true) : e.2 ≠ d := by
  cases t with
  | nil => simpa [canon] using h
  | cons f r => simp only [canon, Bool.and_eq_true, decide_eq_true_eq] at h; exact h.1.2

/-- Keys strictly rise along a canonical table. -/
theorem canon_lt {e : Nat × α} {t : Table α} (h : canon d (e :: t) = true) : ∀ f ∈ t, e.1 < f.1 := by
  induction t generalizing e with
  | nil => simp
  | cons g r ih =>
    intro f hf
    have hg : e.1 < g.1 := by simp only [canon, Bool.and_eq_true, decide_eq_true_eq] at h; exact h.1.1
    rcases List.mem_cons.1 hf with rfl | hf
    · exact hg
    · exact Nat.lt_trans hg (ih (canon_tail h) f hf)

theorem canon_cons {e : Nat × α} {t : Table α} (he : e.2 ≠ d) (hl : ∀ f ∈ t, e.1 < f.1) (h : canon d t = true) :
    canon d (e :: t) = true := by
  cases t with
  | nil => simpa [canon] using he
  | cons f r => simp [canon, he, hl f (by simp), h]

theorem mem_put {t : Table α} {i : Nat} {v : α} {f : Nat × α} (h : f ∈ put d t i v) : f.1 = i ∨ f ∈ t := by
  induction t with
  | nil =>
    unfold put at h
    split at h
    · simp at h
    · simp only [List.mem_singleton] at h; subst h; simp
  | cons e r ih =>
    obtain ⟨k, w⟩ := e
    unfold put at h
    split at h
    · split at h
      · exact .inr h
      · rcases List.mem_cons.1 h with rfl | h
        · simp
        · exact .inr h
    · split at h
      · split at h
        · exact .inr (List.mem_cons_of_mem _ ((List.dropWhile_sublist _).mem h))
        · rcases List.mem_cons.1 h with rfl | h
          · simp
          · exact .inr (List.mem_cons_of_mem _ h)
      · rcases List.mem_cons.1 h with rfl | h
        · simp
        · rcases ih h with h | h
          · exact .inl h
          · exact .inr (List.mem_cons_of_mem _ h)

omit [DecidableEq α] in
theorem dropWhile_of_lt {t : Table α} {i : Nat} (h : ∀ f ∈ t, i < f.1) : t.dropWhile (fun e => decide (e.1 ≤ i)) = t := by
  cases t with
  | nil => rfl
  | cons e r =>
    have := h e (by simp)
    simp [List.dropWhile, Nat.not_le.2 this]

/-- A write keeps the canonical form. -/
theorem canon_put {t : Table α} (i : Nat) (v : α) (h : canon d t = true) : canon d (put d t i v) = true := by
  induction t with
  | nil =>
    unfold put
    split
    · rfl
    · rename_i hv; simpa [canon] using hv
  | cons e r ih =>
    obtain ⟨k, w⟩ := e
    unfold put
    split
    · rename_i hik
      split
      · exact h
      · rename_i hv
        refine canon_cons hv (fun f hf => ?_) h
        rcases List.mem_cons.1 hf with rfl | hf
        · exact hik
        · exact Nat.lt_trans hik (canon_lt h f hf)
    · split
      · rename_i hik
        subst hik
        split
        · rw [dropWhile_of_lt (canon_lt h)]; exact canon_tail h
        · rename_i hv; exact canon_cons hv (fun f hf => canon_lt h f hf) (canon_tail h)
      · refine canon_cons (canon_head h) (fun f hf => ?_) (ih (canon_tail h))
        rcases mem_put hf with hf | hf
        · simp only [hf]; omega
        · exact canon_lt h f hf

/-- A table built from any list is canonical. -/
theorem canon_tableOf (l : List (Nat × α)) : canon d (tableOf d l) = true := by
  unfold tableOf
  suffices ∀ t : Table α, canon d t = true → canon d (l.foldl (fun t e => put d t e.1 e.2) t) = true from this [] rfl
  induction l with
  | nil => exact fun _ h => h
  | cons e r ih => exact fun t h => ih _ (canon_put _ _ h)

omit [DecidableEq α] in
/-- A value that a table reads at a key is its default or stands in an entry of that key. -/
theorem get_mem (t : Table α) (i : Nat) : get d t i = d ∨ (i, get d t i) ∈ t := by
  induction t with
  | nil => exact .inl rfl
  | cons e r ih =>
    obtain ⟨k, w⟩ := e
    unfold get
    split
    · exact .inl rfl
    · split
      · rename_i h; subst h; exact .inr (by simp)
      · rcases ih with h | h
        · exact .inl h
        · exact .inr (List.mem_cons_of_mem _ h)

/-! ### Byte memory -/

theorem wf_nil : Memory.wf [] = true := rfl

theorem wf_writeByte {m : Memory} (a : Nat) (b : BitVec 8) (h : m.wf = true) : (writeByte m a b).wf = true := canon_put a b h

theorem wf_writeBytes {m : Memory} (a n v : Nat) (h : m.wf = true) : (writeBytes m a n v).wf = true := by
  induction n generalizing m a v with
  | zero => exact h
  | succ n ih => exact ih _ _ (wf_writeByte _ _ h)

theorem wf_copyBytes {src dst : Memory} (sa da n : Nat) (h : dst.wf = true) : (copyBytes src sa dst da n).wf = true := by
  induction n generalizing sa da dst with
  | zero => exact h
  | succ n ih => exact ih _ _ (wf_writeByte _ _ h)

@[simp] theorem readByte_nil (a : Nat) : readByte [] a = 0 := rfl

theorem readByte_writeByte (m : Memory) (a b : Nat) (v : BitVec 8) :
    readByte (writeByte m a v) b = if b = a then v else readByte m b := get_put m a b v

/-- Bytes outside a write are as before; a byte inside is that of the value. -/
theorem readByte_writeBytes (m : Memory) (a n v b : Nat) :
    readByte (writeBytes m a n v) b =
      if a ≤ b ∧ b < a + n then BitVec.ofNat 8 (v / 256 ^ (b - a)) else readByte m b := by
  induction n generalizing m a v with
  | zero =>
    have : ¬ (a ≤ b ∧ b < a + 0) := by omega
    simp only [this, if_false, writeBytes]
  | succ n ih =>
    simp only [writeBytes, ih, readByte_writeByte]
    by_cases hb : b = a
    · subst hb
      have h1 : ¬ (b + 1 ≤ b ∧ b < b + 1 + n) := by omega
      have h2 : b ≤ b ∧ b < b + (n + 1) := by omega
      rw [if_neg h1, if_pos rfl, if_pos h2]
      simp
    · by_cases h : a + 1 ≤ b ∧ b < a + 1 + n
      · have h' : a ≤ b ∧ b < a + (n + 1) := by omega
        have e : b - a = (b - (a + 1)) + 1 := by omega
        simp only [h, h', e, Nat.pow_succ, Nat.div_div_eq_div_mul, Nat.mul_comm]
        simp
      · have h' : ¬ (a ≤ b ∧ b < a + (n + 1)) := by omega
        simp only [h, h', hb, if_false]

/-- Copied bytes are those of the source; the others are as before. -/
theorem readByte_copyBytes (src dst : Memory) (sa da n b : Nat) :
    readByte (copyBytes src sa dst da n) b =
      if da ≤ b ∧ b < da + n then readByte src (sa + (b - da)) else readByte dst b := by
  induction n generalizing sa da dst with
  | zero =>
    have : ¬ (da ≤ b ∧ b < da + 0) := by omega
    simp only [this, if_false, copyBytes]
  | succ n ih =>
    simp only [copyBytes, ih, readByte_writeByte]
    by_cases hb : b = da
    · subst hb
      have h1 : ¬ (b + 1 ≤ b ∧ b < b + 1 + n) := by omega
      have h2 : b ≤ b ∧ b < b + (n + 1) := by omega
      rw [if_neg h1, if_pos rfl, if_pos h2]
      simp
    · by_cases h : da + 1 ≤ b ∧ b < da + 1 + n
      · have h' : da ≤ b ∧ b < da + (n + 1) := by omega
        have e : sa + 1 + (b - (da + 1)) = sa + (b - da) := by omega
        rw [if_pos h, if_pos h', e]
      · have h' : ¬ (da ≤ b ∧ b < da + (n + 1)) := by omega
        simp only [h, h', hb, if_false]

/-! ### Sets and ranked lists -/

theorem mem_insertNat {x k : Nat} {l : List Nat} : k ∈ insertNat x l ↔ k = x ∨ k ∈ l := by
  induction l with
  | nil => simp [insertNat]
  | cons y r ih =>
    unfold insertNat
    split
    · simp
    · split
      · rename_i h; subst h; simp
      · simp only [List.mem_cons, ih]
        constructor
        · rintro (h | h | h) <;> simp [h]
        · rintro (h | h | h) <;> simp [h]

@[simp] theorem insertNat_insertNat (x : Nat) (l : List Nat) : insertNat x (insertNat x l) = insertNat x l := by
  induction l with
  | nil => simp [insertNat]
  | cons y r ih =>
    by_cases h1 : x < y
    · simp [insertNat, h1]
    · by_cases h2 : x = y
      · simp [insertNat, h2]
      · simp [insertNat, h1, h2, ih]

variable {β : Type}

theorem mem_insertBy {better : β → β → Bool} {x y : β} {l : List β} : y ∈ insertBy better x l ↔ y = x ∨ y ∈ l := by
  induction l with
  | nil => simp [insertBy]
  | cons z r ih =>
    unfold insertBy
    split
    · simp
    · simp only [List.mem_cons, ih]
      constructor
      · rintro (h | h | h) <;> simp [h]
      · rintro (h | h | h) <;> simp [h]

@[simp] theorem length_insertBy (better : β → β → Bool) (x : β) (l : List β) : (insertBy better x l).length = l.length + 1 := by
  induction l with
  | nil => rfl
  | cons y r ih =>
    unfold insertBy
    split
    · rfl
    · simp [ih]

theorem mem_sortBy {better : β → β → Bool} {x : β} {l : List β} : x ∈ sortBy better l ↔ x ∈ l := by
  induction l with
  | nil => simp [sortBy]
  | cons y r ih =>
    have : sortBy better (y :: r) = insertBy better y (sortBy better r) := rfl
    rw [this, mem_insertBy, ih, List.mem_cons]

theorem mem_bestBy {better : β → β → Bool} {x : β} {l : List β} (h : bestBy better l = some x) : x ∈ l := by
  induction l generalizing x with
  | nil => simp [bestBy] at h
  | cons y r ih =>
    unfold bestBy at h
    split at h
    · simp_all
    · rename_i z hz
      split at h
      · exact List.mem_cons_of_mem _ (ih (by simp_all))
      · simp_all

end Sys2Proof.Machine
end

