-- ==== Sys2Proof/Laws/State.lean ====
section
/-! SUPPORT. What each update of one part of the state leaves: one lemma per field per update, and what the numbered parts
read after an update. -/

namespace Sys2Proof.Machine

variable (s : State)

/-! ### setChan -/

@[simp] theorem setChan_clk (c : Nat) (v : Channel) : (setChan c v s).clk = s.clk := rfl
@[simp] theorem setChan_irq (c : Nat) (v : Channel) : (setChan c v s).irq = s.irq := rfl
@[simp] theorem setChan_flog (c : Nat) (v : Channel) : (setChan c v s).flog = s.flog := rfl
@[simp] theorem setChan_lines (c : Nat) (v : Channel) : (setChan c v s).lines = s.lines := rfl
@[simp] theorem setChan_loadTill (c : Nat) (v : Channel) : (setChan c v s).loadTill = s.loadTill := rfl
@[simp] theorem setChan_shadow (c : Nat) (v : Channel) : (setChan c v s).shadow = s.shadow := rfl
@[simp] theorem setChan_before (c : Nat) (v : Channel) : (setChan c v s).before = s.before := rfl
@[simp] theorem setChan_start (c : Nat) (v : Channel) : (setChan c v s).start = s.start := rfl
@[simp] theorem setChan_routes (c : Nat) (v : Channel) : (setChan c v s).routes = s.routes := rfl
@[simp] theorem setChan_shadowOld (c : Nat) (v : Channel) : (setChan c v s).shadowOld = s.shadowOld := rfl
@[simp] theorem setChan_ev (c : Nat) (v : Channel) : (setChan c v s).ev = s.ev := rfl
@[simp] theorem setChan_movers (c : Nat) (v : Channel) : (setChan c v s).movers = s.movers := rfl
@[simp] theorem setChan_ures (c : Nat) (v : Channel) : (setChan c v s).ures = s.ures := rfl
@[simp] theorem setChan_tres (c : Nat) (v : Channel) : (setChan c v s).tres = s.tres := rfl
@[simp] theorem setChan_ports (c : Nat) (v : Channel) : (setChan c v s).ports = s.ports := rfl
@[simp] theorem setChan_pegSh (c : Nat) (v : Channel) : (setChan c v s).pegSh = s.pegSh := rfl
@[simp] theorem setChan_pegAct (c : Nat) (v : Channel) : (setChan c v s).pegAct = s.pegAct := rfl
@[simp] theorem setChan_pegCommits (c : Nat) (v : Channel) : (setChan c v s).pegCommits = s.pegCommits := rfl
@[simp] theorem setChan_wins (c : Nat) (v : Channel) : (setChan c v s).wins = s.wins := rfl
@[simp] theorem setChan_nvwins (c : Nat) (v : Channel) : (setChan c v s).nvwins = s.nvwins := rfl
@[simp] theorem setChan_prog (c : Nat) (v : Channel) : (setChan c v s).prog = s.prog := rfl
@[simp] theorem setChan_cmd (c : Nat) (v : Channel) : (setChan c v s).cmd = s.cmd := rfl
@[simp] theorem setChan_bs (c : Nat) (v : Channel) : (setChan c v s).bs = s.bs := rfl
@[simp] theorem setChan_boot (c : Nat) (v : Channel) : (setChan c v s).boot = s.boot := rfl
@[simp] theorem setChan_pwr (c : Nat) (v : Channel) : (setChan c v s).pwr = s.pwr := rfl
@[simp] theorem setChan_srst (c : Nat) (v : Channel) : (setChan c v s).srst = s.srst := rfl
@[simp] theorem setChan_pd (c : Nat) (v : Channel) : (setChan c v s).pd = s.pd := rfl
@[simp] theorem setChan_mon (c : Nat) (v : Channel) : (setChan c v s).mon = s.mon := rfl
@[simp] theorem setChan_gate (c : Nat) (v : Channel) : (setChan c v s).gate = s.gate := rfl
@[simp] theorem setChan_tiles (c : Nat) (v : Channel) : (setChan c v s).tiles = s.tiles := rfl
@[simp] theorem setChan_gl (c : Nat) (v : Channel) : (setChan c v s).gl = s.gl := rfl
@[simp] theorem setChan_dig (c : Nat) (v : Channel) : (setChan c v s).dig = s.dig := rfl
@[simp] theorem setChan_com (c : Nat) (v : Channel) : (setChan c v s).com = s.com := rfl
@[simp] theorem setChan_roll (c : Nat) (v : Channel) : (setChan c v s).roll = s.roll := rfl
@[simp] theorem setChan_cfg (c : Nat) (v : Channel) : (setChan c v s).cfg = s.cfg := rfl
@[simp] theorem setChan_test (c : Nat) (v : Channel) : (setChan c v s).test = s.test := rfl
@[simp] theorem setChan_free (c : Nat) (v : Channel) : (setChan c v s).free = s.free := rfl
@[simp] theorem setChan_pending (c : Nat) (v : Channel) : (setChan c v s).pending = s.pending := rfl

/-! ### updChan -/

@[simp] theorem updChan_clk (c : Nat) (f : Channel → Channel) : (updChan c f s).clk = s.clk := rfl
@[simp] theorem updChan_irq (c : Nat) (f : Channel → Channel) : (updChan c f s).irq = s.irq := rfl
@[simp] theorem updChan_flog (c : Nat) (f : Channel → Channel) : (updChan c f s).flog = s.flog := rfl
@[simp] theorem updChan_lines (c : Nat) (f : Channel → Channel) : (updChan c f s).lines = s.lines := rfl
@[simp] theorem updChan_loadTill (c : Nat) (f : Channel → Channel) : (updChan c f s).loadTill = s.loadTill := rfl
@[simp] theorem updChan_shadow (c : Nat) (f : Channel → Channel) : (updChan c f s).shadow = s.shadow := rfl
@[simp] theorem updChan_before (c : Nat) (f : Channel → Channel) : (updChan c f s).before = s.before := rfl
@[simp] theorem updChan_start (c : Nat) (f : Channel → Channel) : (updChan c f s).start = s.start := rfl
@[simp] theorem updChan_routes (c : Nat) (f : Channel → Channel) : (updChan c f s).routes = s.routes := rfl
@[simp] theorem updChan_shadowOld (c : Nat) (f : Channel → Channel) : (updChan c f s).shadowOld = s.shadowOld := rfl
@[simp] theorem updChan_ev (c : Nat) (f : Channel → Channel) : (updChan c f s).ev = s.ev := rfl
@[simp] theorem updChan_movers (c : Nat) (f : Channel → Channel) : (updChan c f s).movers = s.movers := rfl
@[simp] theorem updChan_ures (c : Nat) (f : Channel → Channel) : (updChan c f s).ures = s.ures := rfl
@[simp] theorem updChan_tres (c : Nat) (f : Channel → Channel) : (updChan c f s).tres = s.tres := rfl
@[simp] theorem updChan_ports (c : Nat) (f : Channel → Channel) : (updChan c f s).ports = s.ports := rfl
@[simp] theorem updChan_pegSh (c : Nat) (f : Channel → Channel) : (updChan c f s).pegSh = s.pegSh := rfl
@[simp] theorem updChan_pegAct (c : Nat) (f : Channel → Channel) : (updChan c f s).pegAct = s.pegAct := rfl
@[simp] theorem updChan_pegCommits (c : Nat) (f : Channel → Channel) : (updChan c f s).pegCommits = s.pegCommits := rfl
@[simp] theorem updChan_wins (c : Nat) (f : Channel → Channel) : (updChan c f s).wins = s.wins := rfl
@[simp] theorem updChan_nvwins (c : Nat) (f : Channel → Channel) : (updChan c f s).nvwins = s.nvwins := rfl
@[simp] theorem updChan_prog (c : Nat) (f : Channel → Channel) : (updChan c f s).prog = s.prog := rfl
@[simp] theorem updChan_cmd (c : Nat) (f : Channel → Channel) : (updChan c f s).cmd = s.cmd := rfl
@[simp] theorem updChan_bs (c : Nat) (f : Channel → Channel) : (updChan c f s).bs = s.bs := rfl
@[simp] theorem updChan_boot (c : Nat) (f : Channel → Channel) : (updChan c f s).boot = s.boot := rfl
@[simp] theorem updChan_pwr (c : Nat) (f : Channel → Channel) : (updChan c f s).pwr = s.pwr := rfl
@[simp] theorem updChan_srst (c : Nat) (f : Channel → Channel) : (updChan c f s).srst = s.srst := rfl
@[simp] theorem updChan_pd (c : Nat) (f : Channel → Channel) : (updChan c f s).pd = s.pd := rfl
@[simp] theorem updChan_mon (c : Nat) (f : Channel → Channel) : (updChan c f s).mon = s.mon := rfl
@[simp] theorem updChan_gate (c : Nat) (f : Channel → Channel) : (updChan c f s).gate = s.gate := rfl
@[simp] theorem updChan_tiles (c : Nat) (f : Channel → Channel) : (updChan c f s).tiles = s.tiles := rfl
@[simp] theorem updChan_gl (c : Nat) (f : Channel → Channel) : (updChan c f s).gl = s.gl := rfl
@[simp] theorem updChan_dig (c : Nat) (f : Channel → Channel) : (updChan c f s).dig = s.dig := rfl
@[simp] theorem updChan_com (c : Nat) (f : Channel → Channel) : (updChan c f s).com = s.com := rfl
@[simp] theorem updChan_roll (c : Nat) (f : Channel → Channel) : (updChan c f s).roll = s.roll := rfl
@[simp] theorem updChan_cfg (c : Nat) (f : Channel → Channel) : (updChan c f s).cfg = s.cfg := rfl
@[simp] theorem updChan_test (c : Nat) (f : Channel → Channel) : (updChan c f s).test = s.test := rfl
@[simp] theorem updChan_free (c : Nat) (f : Channel → Channel) : (updChan c f s).free = s.free := rfl
@[simp] theorem updChan_pending (c : Nat) (f : Channel → Channel) : (updChan c f s).pending = s.pending := rfl

/-! ### setPort -/

@[simp] theorem setPort_clk (n : Nat) (v : Port) : (setPort n v s).clk = s.clk := rfl
@[simp] theorem setPort_irq (n : Nat) (v : Port) : (setPort n v s).irq = s.irq := rfl
@[simp] theorem setPort_flog (n : Nat) (v : Port) : (setPort n v s).flog = s.flog := rfl
@[simp] theorem setPort_lines (n : Nat) (v : Port) : (setPort n v s).lines = s.lines := rfl
@[simp] theorem setPort_loadTill (n : Nat) (v : Port) : (setPort n v s).loadTill = s.loadTill := rfl
@[simp] theorem setPort_shadow (n : Nat) (v : Port) : (setPort n v s).shadow = s.shadow := rfl
@[simp] theorem setPort_before (n : Nat) (v : Port) : (setPort n v s).before = s.before := rfl
@[simp] theorem setPort_start (n : Nat) (v : Port) : (setPort n v s).start = s.start := rfl
@[simp] theorem setPort_routes (n : Nat) (v : Port) : (setPort n v s).routes = s.routes := rfl
@[simp] theorem setPort_shadowOld (n : Nat) (v : Port) : (setPort n v s).shadowOld = s.shadowOld := rfl
@[simp] theorem setPort_ev (n : Nat) (v : Port) : (setPort n v s).ev = s.ev := rfl
@[simp] theorem setPort_chans (n : Nat) (v : Port) : (setPort n v s).chans = s.chans := rfl
@[simp] theorem setPort_movers (n : Nat) (v : Port) : (setPort n v s).movers = s.movers := rfl
@[simp] theorem setPort_ures (n : Nat) (v : Port) : (setPort n v s).ures = s.ures := rfl
@[simp] theorem setPort_tres (n : Nat) (v : Port) : (setPort n v s).tres = s.tres := rfl
@[simp] theorem setPort_pegSh (n : Nat) (v : Port) : (setPort n v s).pegSh = s.pegSh := rfl
@[simp] theorem setPort_pegAct (n : Nat) (v : Port) : (setPort n v s).pegAct = s.pegAct := rfl
@[simp] theorem setPort_pegCommits (n : Nat) (v : Port) : (setPort n v s).pegCommits = s.pegCommits := rfl
@[simp] theorem setPort_wins (n : Nat) (v : Port) : (setPort n v s).wins = s.wins := rfl
@[simp] theorem setPort_nvwins (n : Nat) (v : Port) : (setPort n v s).nvwins = s.nvwins := rfl
@[simp] theorem setPort_prog (n : Nat) (v : Port) : (setPort n v s).prog = s.prog := rfl
@[simp] theorem setPort_cmd (n : Nat) (v : Port) : (setPort n v s).cmd = s.cmd := rfl
@[simp] theorem setPort_bs (n : Nat) (v : Port) : (setPort n v s).bs = s.bs := rfl
@[simp] theorem setPort_boot (n : Nat) (v : Port) : (setPort n v s).boot = s.boot := rfl
@[simp] theorem setPort_pwr (n : Nat) (v : Port) : (setPort n v s).pwr = s.pwr := rfl
@[simp] theorem setPort_srst (n : Nat) (v : Port) : (setPort n v s).srst = s.srst := rfl
@[simp] theorem setPort_pd (n : Nat) (v : Port) : (setPort n v s).pd = s.pd := rfl
@[simp] theorem setPort_mon (n : Nat) (v : Port) : (setPort n v s).mon = s.mon := rfl
@[simp] theorem setPort_gate (n : Nat) (v : Port) : (setPort n v s).gate = s.gate := rfl
@[simp] theorem setPort_tiles (n : Nat) (v : Port) : (setPort n v s).tiles = s.tiles := rfl
@[simp] theorem setPort_gl (n : Nat) (v : Port) : (setPort n v s).gl = s.gl := rfl
@[simp] theorem setPort_dig (n : Nat) (v : Port) : (setPort n v s).dig = s.dig := rfl
@[simp] theorem setPort_com (n : Nat) (v : Port) : (setPort n v s).com = s.com := rfl
@[simp] theorem setPort_roll (n : Nat) (v : Port) : (setPort n v s).roll = s.roll := rfl
@[simp] theorem setPort_cfg (n : Nat) (v : Port) : (setPort n v s).cfg = s.cfg := rfl
@[simp] theorem setPort_test (n : Nat) (v : Port) : (setPort n v s).test = s.test := rfl
@[simp] theorem setPort_free (n : Nat) (v : Port) : (setPort n v s).free = s.free := rfl
@[simp] theorem setPort_pending (n : Nat) (v : Port) : (setPort n v s).pending = s.pending := rfl

/-! ### updPort -/

@[simp] theorem updPort_clk (n : Nat) (f : Port → Port) : (updPort n f s).clk = s.clk := rfl
@[simp] theorem updPort_irq (n : Nat) (f : Port → Port) : (updPort n f s).irq = s.irq := rfl
@[simp] theorem updPort_flog (n : Nat) (f : Port → Port) : (updPort n f s).flog = s.flog := rfl
@[simp] theorem updPort_lines (n : Nat) (f : Port → Port) : (updPort n f s).lines = s.lines := rfl
@[simp] theorem updPort_loadTill (n : Nat) (f : Port → Port) : (updPort n f s).loadTill = s.loadTill := rfl
@[simp] theorem updPort_shadow (n : Nat) (f : Port → Port) : (updPort n f s).shadow = s.shadow := rfl
@[simp] theorem updPort_before (n : Nat) (f : Port → Port) : (updPort n f s).before = s.before := rfl
@[simp] theorem updPort_start (n : Nat) (f : Port → Port) : (updPort n f s).start = s.start := rfl
@[simp] theorem updPort_routes (n : Nat) (f : Port → Port) : (updPort n f s).routes = s.routes := rfl
@[simp] theorem updPort_shadowOld (n : Nat) (f : Port → Port) : (updPort n f s).shadowOld = s.shadowOld := rfl
@[simp] theorem updPort_ev (n : Nat) (f : Port → Port) : (updPort n f s).ev = s.ev := rfl
@[simp] theorem updPort_chans (n : Nat) (f : Port → Port) : (updPort n f s).chans = s.chans := rfl
@[simp] theorem updPort_movers (n : Nat) (f : Port → Port) : (updPort n f s).movers = s.movers := rfl
@[simp] theorem updPort_ures (n : Nat) (f : Port → Port) : (updPort n f s).ures = s.ures := rfl
@[simp] theorem updPort_tres (n : Nat) (f : Port → Port) : (updPort n f s).tres = s.tres := rfl
@[simp] theorem updPort_pegSh (n : Nat) (f : Port → Port) : (updPort n f s).pegSh = s.pegSh := rfl
@[simp] theorem updPort_pegAct (n : Nat) (f : Port → Port) : (updPort n f s).pegAct = s.pegAct := rfl
@[simp] theorem updPort_pegCommits (n : Nat) (f : Port → Port) : (updPort n f s).pegCommits = s.pegCommits := rfl
@[simp] theorem updPort_wins (n : Nat) (f : Port → Port) : (updPort n f s).wins = s.wins := rfl
@[simp] theorem updPort_nvwins (n : Nat) (f : Port → Port) : (updPort n f s).nvwins = s.nvwins := rfl
@[simp] theorem updPort_prog (n : Nat) (f : Port → Port) : (updPort n f s).prog = s.prog := rfl
@[simp] theorem updPort_cmd (n : Nat) (f : Port → Port) : (updPort n f s).cmd = s.cmd := rfl
@[simp] theorem updPort_bs (n : Nat) (f : Port → Port) : (updPort n f s).bs = s.bs := rfl
@[simp] theorem updPort_boot (n : Nat) (f : Port → Port) : (updPort n f s).boot = s.boot := rfl
@[simp] theorem updPort_pwr (n : Nat) (f : Port → Port) : (updPort n f s).pwr = s.pwr := rfl
@[simp] theorem updPort_srst (n : Nat) (f : Port → Port) : (updPort n f s).srst = s.srst := rfl
@[simp] theorem updPort_pd (n : Nat) (f : Port → Port) : (updPort n f s).pd = s.pd := rfl
@[simp] theorem updPort_mon (n : Nat) (f : Port → Port) : (updPort n f s).mon = s.mon := rfl
@[simp] theorem updPort_gate (n : Nat) (f : Port → Port) : (updPort n f s).gate = s.gate := rfl
@[simp] theorem updPort_tiles (n : Nat) (f : Port → Port) : (updPort n f s).tiles = s.tiles := rfl
@[simp] theorem updPort_gl (n : Nat) (f : Port → Port) : (updPort n f s).gl = s.gl := rfl
@[simp] theorem updPort_dig (n : Nat) (f : Port → Port) : (updPort n f s).dig = s.dig := rfl
@[simp] theorem updPort_com (n : Nat) (f : Port → Port) : (updPort n f s).com = s.com := rfl
@[simp] theorem updPort_roll (n : Nat) (f : Port → Port) : (updPort n f s).roll = s.roll := rfl
@[simp] theorem updPort_cfg (n : Nat) (f : Port → Port) : (updPort n f s).cfg = s.cfg := rfl
@[simp] theorem updPort_test (n : Nat) (f : Port → Port) : (updPort n f s).test = s.test := rfl
@[simp] theorem updPort_free (n : Nat) (f : Port → Port) : (updPort n f s).free = s.free := rfl
@[simp] theorem updPort_pending (n : Nat) (f : Port → Port) : (updPort n f s).pending = s.pending := rfl

/-! ### setMover -/

@[simp] theorem setMover_clk (m : Nat) (v : Mover) : (setMover m v s).clk = s.clk := rfl
@[simp] theorem setMover_irq (m : Nat) (v : Mover) : (setMover m v s).irq = s.irq := rfl
@[simp] theorem setMover_flog (m : Nat) (v : Mover) : (setMover m v s).flog = s.flog := rfl
@[simp] theorem setMover_lines (m : Nat) (v : Mover) : (setMover m v s).lines = s.lines := rfl
@[simp] theorem setMover_loadTill (m : Nat) (v : Mover) : (setMover m v s).loadTill = s.loadTill := rfl
@[simp] theorem setMover_shadow (m : Nat) (v : Mover) : (setMover m v s).shadow = s.shadow := rfl
@[simp] theorem setMover_before (m : Nat) (v : Mover) : (setMover m v s).before = s.before := rfl
@[simp] theorem setMover_start (m : Nat) (v : Mover) : (setMover m v s).start = s.start := rfl
@[simp] theorem setMover_routes (m : Nat) (v : Mover) : (setMover m v s).routes = s.routes := rfl
@[simp] theorem setMover_shadowOld (m : Nat) (v : Mover) : (setMover m v s).shadowOld = s.shadowOld := rfl
@[simp] theorem setMover_ev (m : Nat) (v : Mover) : (setMover m v s).ev = s.ev := rfl
@[simp] theorem setMover_chans (m : Nat) (v : Mover) : (setMover m v s).chans = s.chans := rfl
@[simp] theorem setMover_ures (m : Nat) (v : Mover) : (setMover m v s).ures = s.ures := rfl
@[simp] theorem setMover_tres (m : Nat) (v : Mover) : (setMover m v s).tres = s.tres := rfl
@[simp] theorem setMover_ports (m : Nat) (v : Mover) : (setMover m v s).ports = s.ports := rfl
@[simp] theorem setMover_pegSh (m : Nat) (v : Mover) : (setMover m v s).pegSh = s.pegSh := rfl
@[simp] theorem setMover_pegAct (m : Nat) (v : Mover) : (setMover m v s).pegAct = s.pegAct := rfl
@[simp] theorem setMover_pegCommits (m : Nat) (v : Mover) : (setMover m v s).pegCommits = s.pegCommits := rfl
@[simp] theorem setMover_wins (m : Nat) (v : Mover) : (setMover m v s).wins = s.wins := rfl
@[simp] theorem setMover_nvwins (m : Nat) (v : Mover) : (setMover m v s).nvwins = s.nvwins := rfl
@[simp] theorem setMover_prog (m : Nat) (v : Mover) : (setMover m v s).prog = s.prog := rfl
@[simp] theorem setMover_cmd (m : Nat) (v : Mover) : (setMover m v s).cmd = s.cmd := rfl
@[simp] theorem setMover_bs (m : Nat) (v : Mover) : (setMover m v s).bs = s.bs := rfl
@[simp] theorem setMover_boot (m : Nat) (v : Mover) : (setMover m v s).boot = s.boot := rfl
@[simp] theorem setMover_pwr (m : Nat) (v : Mover) : (setMover m v s).pwr = s.pwr := rfl
@[simp] theorem setMover_srst (m : Nat) (v : Mover) : (setMover m v s).srst = s.srst := rfl
@[simp] theorem setMover_pd (m : Nat) (v : Mover) : (setMover m v s).pd = s.pd := rfl
@[simp] theorem setMover_mon (m : Nat) (v : Mover) : (setMover m v s).mon = s.mon := rfl
@[simp] theorem setMover_gate (m : Nat) (v : Mover) : (setMover m v s).gate = s.gate := rfl
@[simp] theorem setMover_tiles (m : Nat) (v : Mover) : (setMover m v s).tiles = s.tiles := rfl
@[simp] theorem setMover_gl (m : Nat) (v : Mover) : (setMover m v s).gl = s.gl := rfl
@[simp] theorem setMover_dig (m : Nat) (v : Mover) : (setMover m v s).dig = s.dig := rfl
@[simp] theorem setMover_com (m : Nat) (v : Mover) : (setMover m v s).com = s.com := rfl
@[simp] theorem setMover_roll (m : Nat) (v : Mover) : (setMover m v s).roll = s.roll := rfl
@[simp] theorem setMover_cfg (m : Nat) (v : Mover) : (setMover m v s).cfg = s.cfg := rfl
@[simp] theorem setMover_test (m : Nat) (v : Mover) : (setMover m v s).test = s.test := rfl
@[simp] theorem setMover_free (m : Nat) (v : Mover) : (setMover m v s).free = s.free := rfl
@[simp] theorem setMover_pending (m : Nat) (v : Mover) : (setMover m v s).pending = s.pending := rfl

/-! ### setTile -/

@[simp] theorem setTile_clk (g : Nat) (v : Tile) : (setTile g v s).clk = s.clk := rfl
@[simp] theorem setTile_irq (g : Nat) (v : Tile) : (setTile g v s).irq = s.irq := rfl
@[simp] theorem setTile_flog (g : Nat) (v : Tile) : (setTile g v s).flog = s.flog := rfl
@[simp] theorem setTile_lines (g : Nat) (v : Tile) : (setTile g v s).lines = s.lines := rfl
@[simp] theorem setTile_loadTill (g : Nat) (v : Tile) : (setTile g v s).loadTill = s.loadTill := rfl
@[simp] theorem setTile_shadow (g : Nat) (v : Tile) : (setTile g v s).shadow = s.shadow := rfl
@[simp] theorem setTile_before (g : Nat) (v : Tile) : (setTile g v s).before = s.before := rfl
@[simp] theorem setTile_start (g : Nat) (v : Tile) : (setTile g v s).start = s.start := rfl
@[simp] theorem setTile_routes (g : Nat) (v : Tile) : (setTile g v s).routes = s.routes := rfl
@[simp] theorem setTile_shadowOld (g : Nat) (v : Tile) : (setTile g v s).shadowOld = s.shadowOld := rfl
@[simp] theorem setTile_ev (g : Nat) (v : Tile) : (setTile g v s).ev = s.ev := rfl
@[simp] theorem setTile_chans (g : Nat) (v : Tile) : (setTile g v s).chans = s.chans := rfl
@[simp] theorem setTile_movers (g : Nat) (v : Tile) : (setTile g v s).movers = s.movers := rfl
@[simp] theorem setTile_ures (g : Nat) (v : Tile) : (setTile g v s).ures = s.ures := rfl
@[simp] theorem setTile_tres (g : Nat) (v : Tile) : (setTile g v s).tres = s.tres := rfl
@[simp] theorem setTile_ports (g : Nat) (v : Tile) : (setTile g v s).ports = s.ports := rfl
@[simp] theorem setTile_pegSh (g : Nat) (v : Tile) : (setTile g v s).pegSh = s.pegSh := rfl
@[simp] theorem setTile_pegAct (g : Nat) (v : Tile) : (setTile g v s).pegAct = s.pegAct := rfl
@[simp] theorem setTile_pegCommits (g : Nat) (v : Tile) : (setTile g v s).pegCommits = s.pegCommits := rfl
@[simp] theorem setTile_wins (g : Nat) (v : Tile) : (setTile g v s).wins = s.wins := rfl
@[simp] theorem setTile_nvwins (g : Nat) (v : Tile) : (setTile g v s).nvwins = s.nvwins := rfl
@[simp] theorem setTile_prog (g : Nat) (v : Tile) : (setTile g v s).prog = s.prog := rfl
@[simp] theorem setTile_cmd (g : Nat) (v : Tile) : (setTile g v s).cmd = s.cmd := rfl
@[simp] theorem setTile_bs (g : Nat) (v : Tile) : (setTile g v s).bs = s.bs := rfl
@[simp] theorem setTile_boot (g : Nat) (v : Tile) : (setTile g v s).boot = s.boot := rfl
@[simp] theorem setTile_pwr (g : Nat) (v : Tile) : (setTile g v s).pwr = s.pwr := rfl
@[simp] theorem setTile_srst (g : Nat) (v : Tile) : (setTile g v s).srst = s.srst := rfl
@[simp] theorem setTile_pd (g : Nat) (v : Tile) : (setTile g v s).pd = s.pd := rfl
@[simp] theorem setTile_mon (g : Nat) (v : Tile) : (setTile g v s).mon = s.mon := rfl
@[simp] theorem setTile_gate (g : Nat) (v : Tile) : (setTile g v s).gate = s.gate := rfl
@[simp] theorem setTile_gl (g : Nat) (v : Tile) : (setTile g v s).gl = s.gl := rfl
@[simp] theorem setTile_dig (g : Nat) (v : Tile) : (setTile g v s).dig = s.dig := rfl
@[simp] theorem setTile_com (g : Nat) (v : Tile) : (setTile g v s).com = s.com := rfl
@[simp] theorem setTile_roll (g : Nat) (v : Tile) : (setTile g v s).roll = s.roll := rfl
@[simp] theorem setTile_cfg (g : Nat) (v : Tile) : (setTile g v s).cfg = s.cfg := rfl
@[simp] theorem setTile_test (g : Nat) (v : Tile) : (setTile g v s).test = s.test := rfl
@[simp] theorem setTile_free (g : Nat) (v : Tile) : (setTile g v s).free = s.free := rfl
@[simp] theorem setTile_pending (g : Nat) (v : Tile) : (setTile g v s).pending = s.pending := rfl

/-! ### setTileRec -/

@[simp] theorem setTileRec_clk (g : Nat) (v : TileRec) : (setTileRec g v s).clk = s.clk := rfl
@[simp] theorem setTileRec_irq (g : Nat) (v : TileRec) : (setTileRec g v s).irq = s.irq := rfl
@[simp] theorem setTileRec_flog (g : Nat) (v : TileRec) : (setTileRec g v s).flog = s.flog := rfl
@[simp] theorem setTileRec_lines (g : Nat) (v : TileRec) : (setTileRec g v s).lines = s.lines := rfl
@[simp] theorem setTileRec_loadTill (g : Nat) (v : TileRec) : (setTileRec g v s).loadTill = s.loadTill := rfl
@[simp] theorem setTileRec_shadow (g : Nat) (v : TileRec) : (setTileRec g v s).shadow = s.shadow := rfl
@[simp] theorem setTileRec_before (g : Nat) (v : TileRec) : (setTileRec g v s).before = s.before := rfl
@[simp] theorem setTileRec_start (g : Nat) (v : TileRec) : (setTileRec g v s).start = s.start := rfl
@[simp] theorem setTileRec_routes (g : Nat) (v : TileRec) : (setTileRec g v s).routes = s.routes := rfl
@[simp] theorem setTileRec_shadowOld (g : Nat) (v : TileRec) : (setTileRec g v s).shadowOld = s.shadowOld := rfl
@[simp] theorem setTileRec_ev (g : Nat) (v : TileRec) : (setTileRec g v s).ev = s.ev := rfl
@[simp] theorem setTileRec_chans (g : Nat) (v : TileRec) : (setTileRec g v s).chans = s.chans := rfl
@[simp] theorem setTileRec_movers (g : Nat) (v : TileRec) : (setTileRec g v s).movers = s.movers := rfl
@[simp] theorem setTileRec_ures (g : Nat) (v : TileRec) : (setTileRec g v s).ures = s.ures := rfl
@[simp] theorem setTileRec_tres (g : Nat) (v : TileRec) : (setTileRec g v s).tres = s.tres := rfl
@[simp] theorem setTileRec_ports (g : Nat) (v : TileRec) : (setTileRec g v s).ports = s.ports := rfl
@[simp] theorem setTileRec_pegSh (g : Nat) (v : TileRec) : (setTileRec g v s).pegSh = s.pegSh := rfl
@[simp] theorem setTileRec_pegAct (g : Nat) (v : TileRec) : (setTileRec g v s).pegAct = s.pegAct := rfl
@[simp] theorem setTileRec_pegCommits (g : Nat) (v : TileRec) : (setTileRec g v s).pegCommits = s.pegCommits := rfl
@[simp] theorem setTileRec_wins (g : Nat) (v : TileRec) : (setTileRec g v s).wins = s.wins := rfl
@[simp] theorem setTileRec_nvwins (g : Nat) (v : TileRec) : (setTileRec g v s).nvwins = s.nvwins := rfl
@[simp] theorem setTileRec_prog (g : Nat) (v : TileRec) : (setTileRec g v s).prog = s.prog := rfl
@[simp] theorem setTileRec_cmd (g : Nat) (v : TileRec) : (setTileRec g v s).cmd = s.cmd := rfl
@[simp] theorem setTileRec_bs (g : Nat) (v : TileRec) : (setTileRec g v s).bs = s.bs := rfl
@[simp] theorem setTileRec_boot (g : Nat) (v : TileRec) : (setTileRec g v s).boot = s.boot := rfl
@[simp] theorem setTileRec_pwr (g : Nat) (v : TileRec) : (setTileRec g v s).pwr = s.pwr := rfl
@[simp] theorem setTileRec_srst (g : Nat) (v : TileRec) : (setTileRec g v s).srst = s.srst := rfl
@[simp] theorem setTileRec_pd (g : Nat) (v : TileRec) : (setTileRec g v s).pd = s.pd := rfl
@[simp] theorem setTileRec_mon (g : Nat) (v : TileRec) : (setTileRec g v s).mon = s.mon := rfl
@[simp] theorem setTileRec_tiles (g : Nat) (v : TileRec) : (setTileRec g v s).tiles = s.tiles := rfl
@[simp] theorem setTileRec_gl (g : Nat) (v : TileRec) : (setTileRec g v s).gl = s.gl := rfl
@[simp] theorem setTileRec_dig (g : Nat) (v : TileRec) : (setTileRec g v s).dig = s.dig := rfl
@[simp] theorem setTileRec_com (g : Nat) (v : TileRec) : (setTileRec g v s).com = s.com := rfl
@[simp] theorem setTileRec_roll (g : Nat) (v : TileRec) : (setTileRec g v s).roll = s.roll := rfl
@[simp] theorem setTileRec_cfg (g : Nat) (v : TileRec) : (setTileRec g v s).cfg = s.cfg := rfl
@[simp] theorem setTileRec_test (g : Nat) (v : TileRec) : (setTileRec g v s).test = s.test := rfl
@[simp] theorem setTileRec_free (g : Nat) (v : TileRec) : (setTileRec g v s).free = s.free := rfl
@[simp] theorem setTileRec_pending (g : Nat) (v : TileRec) : (setTileRec g v s).pending = s.pending := rfl

/-! ### setLine -/

@[simp] theorem setLine_clk (n : Nat) (v : ReqLine) : (setLine n v s).clk = s.clk := rfl
@[simp] theorem setLine_irq (n : Nat) (v : ReqLine) : (setLine n v s).irq = s.irq := rfl
@[simp] theorem setLine_flog (n : Nat) (v : ReqLine) : (setLine n v s).flog = s.flog := rfl
@[simp] theorem setLine_loadTill (n : Nat) (v : ReqLine) : (setLine n v s).loadTill = s.loadTill := rfl
@[simp] theorem setLine_shadow (n : Nat) (v : ReqLine) : (setLine n v s).shadow = s.shadow := rfl
@[simp] theorem setLine_before (n : Nat) (v : ReqLine) : (setLine n v s).before = s.before := rfl
@[simp] theorem setLine_start (n : Nat) (v : ReqLine) : (setLine n v s).start = s.start := rfl
@[simp] theorem setLine_routes (n : Nat) (v : ReqLine) : (setLine n v s).routes = s.routes := rfl
@[simp] theorem setLine_shadowOld (n : Nat) (v : ReqLine) : (setLine n v s).shadowOld = s.shadowOld := rfl
@[simp] theorem setLine_ev (n : Nat) (v : ReqLine) : (setLine n v s).ev = s.ev := rfl
@[simp] theorem setLine_chans (n : Nat) (v : ReqLine) : (setLine n v s).chans = s.chans := rfl
@[simp] theorem setLine_movers (n : Nat) (v : ReqLine) : (setLine n v s).movers = s.movers := rfl
@[simp] theorem setLine_ures (n : Nat) (v : ReqLine) : (setLine n v s).ures = s.ures := rfl
@[simp] theorem setLine_tres (n : Nat) (v : ReqLine) : (setLine n v s).tres = s.tres := rfl
@[simp] theorem setLine_ports (n : Nat) (v : ReqLine) : (setLine n v s).ports = s.ports := rfl
@[simp] theorem setLine_pegSh (n : Nat) (v : ReqLine) : (setLine n v s).pegSh = s.pegSh := rfl
@[simp] theorem setLine_pegAct (n : Nat) (v : ReqLine) : (setLine n v s).pegAct = s.pegAct := rfl
@[simp] theorem setLine_pegCommits (n : Nat) (v : ReqLine) : (setLine n v s).pegCommits = s.pegCommits := rfl
@[simp] theorem setLine_wins (n : Nat) (v : ReqLine) : (setLine n v s).wins = s.wins := rfl
@[simp] theorem setLine_nvwins (n : Nat) (v : ReqLine) : (setLine n v s).nvwins = s.nvwins := rfl
@[simp] theorem setLine_prog (n : Nat) (v : ReqLine) : (setLine n v s).prog = s.prog := rfl
@[simp] theorem setLine_cmd (n : Nat) (v : ReqLine) : (setLine n v s).cmd = s.cmd := rfl
@[simp] theorem setLine_bs (n : Nat) (v : ReqLine) : (setLine n v s).bs = s.bs := rfl
@[simp] theorem setLine_boot (n : Nat) (v : ReqLine) : (setLine n v s).boot = s.boot := rfl
@[simp] theorem setLine_pwr (n : Nat) (v : ReqLine) : (setLine n v s).pwr = s.pwr := rfl
@[simp] theorem setLine_srst (n : Nat) (v : ReqLine) : (setLine n v s).srst = s.srst := rfl
@[simp] theorem setLine_pd (n : Nat) (v : ReqLine) : (setLine n v s).pd = s.pd := rfl
@[simp] theorem setLine_mon (n : Nat) (v : ReqLine) : (setLine n v s).mon = s.mon := rfl
@[simp] theorem setLine_gate (n : Nat) (v : ReqLine) : (setLine n v s).gate = s.gate := rfl
@[simp] theorem setLine_tiles (n : Nat) (v : ReqLine) : (setLine n v s).tiles = s.tiles := rfl
@[simp] theorem setLine_gl (n : Nat) (v : ReqLine) : (setLine n v s).gl = s.gl := rfl
@[simp] theorem setLine_dig (n : Nat) (v : ReqLine) : (setLine n v s).dig = s.dig := rfl
@[simp] theorem setLine_com (n : Nat) (v : ReqLine) : (setLine n v s).com = s.com := rfl
@[simp] theorem setLine_roll (n : Nat) (v : ReqLine) : (setLine n v s).roll = s.roll := rfl
@[simp] theorem setLine_cfg (n : Nat) (v : ReqLine) : (setLine n v s).cfg = s.cfg := rfl
@[simp] theorem setLine_test (n : Nat) (v : ReqLine) : (setLine n v s).test = s.test := rfl
@[simp] theorem setLine_free (n : Nat) (v : ReqLine) : (setLine n v s).free = s.free := rfl
@[simp] theorem setLine_pending (n : Nat) (v : ReqLine) : (setLine n v s).pending = s.pending := rfl

/-! ### takeFree -/

@[simp] theorem takeFree_clk : (takeFree s).clk = s.clk := rfl
@[simp] theorem takeFree_irq : (takeFree s).irq = s.irq := rfl
@[simp] theorem takeFree_flog : (takeFree s).flog = s.flog := rfl
@[simp] theorem takeFree_lines : (takeFree s).lines = s.lines := rfl
@[simp] theorem takeFree_loadTill : (takeFree s).loadTill = s.loadTill := rfl
@[simp] theorem takeFree_shadow : (takeFree s).shadow = s.shadow := rfl
@[simp] theorem takeFree_before : (takeFree s).before = s.before := rfl
@[simp] theorem takeFree_start : (takeFree s).start = s.start := rfl
@[simp] theorem takeFree_routes : (takeFree s).routes = s.routes := rfl
@[simp] theorem takeFree_shadowOld : (takeFree s).shadowOld = s.shadowOld := rfl
@[simp] theorem takeFree_ev : (takeFree s).ev = s.ev := rfl
@[simp] theorem takeFree_chans : (takeFree s).chans = s.chans := rfl
@[simp] theorem takeFree_movers : (takeFree s).movers = s.movers := rfl
@[simp] theorem takeFree_ures : (takeFree s).ures = s.ures := rfl
@[simp] theorem takeFree_tres : (takeFree s).tres = s.tres := rfl
@[simp] theorem takeFree_ports : (takeFree s).ports = s.ports := rfl
@[simp] theorem takeFree_pegSh : (takeFree s).pegSh = s.pegSh := rfl
@[simp] theorem takeFree_pegAct : (takeFree s).pegAct = s.pegAct := rfl
@[simp] theorem takeFree_pegCommits : (takeFree s).pegCommits = s.pegCommits := rfl
@[simp] theorem takeFree_wins : (takeFree s).wins = s.wins := rfl
@[simp] theorem takeFree_nvwins : (takeFree s).nvwins = s.nvwins := rfl
@[simp] theorem takeFree_prog : (takeFree s).prog = s.prog := rfl
@[simp] theorem takeFree_cmd : (takeFree s).cmd = s.cmd := rfl
@[simp] theorem takeFree_bs : (takeFree s).bs = s.bs := rfl
@[simp] theorem takeFree_boot : (takeFree s).boot = s.boot := rfl
@[simp] theorem takeFree_pwr : (takeFree s).pwr = s.pwr := rfl
@[simp] theorem takeFree_srst : (takeFree s).srst = s.srst := rfl
@[simp] theorem takeFree_pd : (takeFree s).pd = s.pd := rfl
@[simp] theorem takeFree_mon : (takeFree s).mon = s.mon := rfl
@[simp] theorem takeFree_gate : (takeFree s).gate = s.gate := rfl
@[simp] theorem takeFree_tiles : (takeFree s).tiles = s.tiles := rfl
@[simp] theorem takeFree_gl : (takeFree s).gl = s.gl := rfl
@[simp] theorem takeFree_dig : (takeFree s).dig = s.dig := rfl
@[simp] theorem takeFree_com : (takeFree s).com = s.com := rfl
@[simp] theorem takeFree_roll : (takeFree s).roll = s.roll := rfl
@[simp] theorem takeFree_cfg : (takeFree s).cfg = s.cfg := rfl
@[simp] theorem takeFree_test : (takeFree s).test = s.test := rfl
@[simp] theorem takeFree_pending : (takeFree s).pending = s.pending := rfl

/-! ### noteSet -/

@[simp] theorem noteSet_clk (w b : Nat) : (noteSet w b s).clk = s.clk := rfl
@[simp] theorem noteSet_flog (w b : Nat) : (noteSet w b s).flog = s.flog := rfl
@[simp] theorem noteSet_lines (w b : Nat) : (noteSet w b s).lines = s.lines := rfl
@[simp] theorem noteSet_loadTill (w b : Nat) : (noteSet w b s).loadTill = s.loadTill := rfl
@[simp] theorem noteSet_shadow (w b : Nat) : (noteSet w b s).shadow = s.shadow := rfl
@[simp] theorem noteSet_before (w b : Nat) : (noteSet w b s).before = s.before := rfl
@[simp] theorem noteSet_start (w b : Nat) : (noteSet w b s).start = s.start := rfl
@[simp] theorem noteSet_routes (w b : Nat) : (noteSet w b s).routes = s.routes := rfl
@[simp] theorem noteSet_shadowOld (w b : Nat) : (noteSet w b s).shadowOld = s.shadowOld := rfl
@[simp] theorem noteSet_ev (w b : Nat) : (noteSet w b s).ev = s.ev := rfl
@[simp] theorem noteSet_chans (w b : Nat) : (noteSet w b s).chans = s.chans := rfl
@[simp] theorem noteSet_movers (w b : Nat) : (noteSet w b s).movers = s.movers := rfl
@[simp] theorem noteSet_ures (w b : Nat) : (noteSet w b s).ures = s.ures := rfl
@[simp] theorem noteSet_tres (w b : Nat) : (noteSet w b s).tres = s.tres := rfl
@[simp] theorem noteSet_ports (w b : Nat) : (noteSet w b s).ports = s.ports := rfl
@[simp] theorem noteSet_pegSh (w b : Nat) : (noteSet w b s).pegSh = s.pegSh := rfl
@[simp] theorem noteSet_pegAct (w b : Nat) : (noteSet w b s).pegAct = s.pegAct := rfl
@[simp] theorem noteSet_pegCommits (w b : Nat) : (noteSet w b s).pegCommits = s.pegCommits := rfl
@[simp] theorem noteSet_wins (w b : Nat) : (noteSet w b s).wins = s.wins := rfl
@[simp] theorem noteSet_nvwins (w b : Nat) : (noteSet w b s).nvwins = s.nvwins := rfl
@[simp] theorem noteSet_prog (w b : Nat) : (noteSet w b s).prog = s.prog := rfl
@[simp] theorem noteSet_cmd (w b : Nat) : (noteSet w b s).cmd = s.cmd := rfl
@[simp] theorem noteSet_bs (w b : Nat) : (noteSet w b s).bs = s.bs := rfl
@[simp] theorem noteSet_boot (w b : Nat) : (noteSet w b s).boot = s.boot := rfl
@[simp] theorem noteSet_pwr (w b : Nat) : (noteSet w b s).pwr = s.pwr := rfl
@[simp] theorem noteSet_srst (w b : Nat) : (noteSet w b s).srst = s.srst := rfl
@[simp] theorem noteSet_pd (w b : Nat) : (noteSet w b s).pd = s.pd := rfl
@[simp] theorem noteSet_mon (w b : Nat) : (noteSet w b s).mon = s.mon := rfl
@[simp] theorem noteSet_gate (w b : Nat) : (noteSet w b s).gate = s.gate := rfl
@[simp] theorem noteSet_tiles (w b : Nat) : (noteSet w b s).tiles = s.tiles := rfl
@[simp] theorem noteSet_gl (w b : Nat) : (noteSet w b s).gl = s.gl := rfl
@[simp] theorem noteSet_dig (w b : Nat) : (noteSet w b s).dig = s.dig := rfl
@[simp] theorem noteSet_com (w b : Nat) : (noteSet w b s).com = s.com := rfl
@[simp] theorem noteSet_roll (w b : Nat) : (noteSet w b s).roll = s.roll := rfl
@[simp] theorem noteSet_cfg (w b : Nat) : (noteSet w b s).cfg = s.cfg := rfl
@[simp] theorem noteSet_test (w b : Nat) : (noteSet w b s).test = s.test := rfl
@[simp] theorem noteSet_free (w b : Nat) : (noteSet w b s).free = s.free := rfl
@[simp] theorem noteSet_pending (w b : Nat) : (noteSet w b s).pending = s.pending := rfl

/-! ### setCause -/

@[simp] theorem setCause_clk (k : Nat) : (setCause k s).clk = s.clk := rfl
@[simp] theorem setCause_flog (k : Nat) : (setCause k s).flog = s.flog := rfl
@[simp] theorem setCause_lines (k : Nat) : (setCause k s).lines = s.lines := rfl
@[simp] theorem setCause_loadTill (k : Nat) : (setCause k s).loadTill = s.loadTill := rfl
@[simp] theorem setCause_shadow (k : Nat) : (setCause k s).shadow = s.shadow := rfl
@[simp] theorem setCause_before (k : Nat) : (setCause k s).before = s.before := rfl
@[simp] theorem setCause_start (k : Nat) : (setCause k s).start = s.start := rfl
@[simp] theorem setCause_routes (k : Nat) : (setCause k s).routes = s.routes := rfl
@[simp] theorem setCause_shadowOld (k : Nat) : (setCause k s).shadowOld = s.shadowOld := rfl
@[simp] theorem setCause_ev (k : Nat) : (setCause k s).ev = s.ev := rfl
@[simp] theorem setCause_chans (k : Nat) : (setCause k s).chans = s.chans := rfl
@[simp] theorem setCause_movers (k : Nat) : (setCause k s).movers = s.movers := rfl
@[simp] theorem setCause_ures (k : Nat) : (setCause k s).ures = s.ures := rfl
@[simp] theorem setCause_tres (k : Nat) : (setCause k s).tres = s.tres := rfl
@[simp] theorem setCause_ports (k : Nat) : (setCause k s).ports = s.ports := rfl
@[simp] theorem setCause_pegSh (k : Nat) : (setCause k s).pegSh = s.pegSh := rfl
@[simp] theorem setCause_pegAct (k : Nat) : (setCause k s).pegAct = s.pegAct := rfl
@[simp] theorem setCause_pegCommits (k : Nat) : (setCause k s).pegCommits = s.pegCommits := rfl
@[simp] theorem setCause_wins (k : Nat) : (setCause k s).wins = s.wins := rfl
@[simp] theorem setCause_nvwins (k : Nat) : (setCause k s).nvwins = s.nvwins := rfl
@[simp] theorem setCause_prog (k : Nat) : (setCause k s).prog = s.prog := rfl
@[simp] theorem setCause_cmd (k : Nat) : (setCause k s).cmd = s.cmd := rfl
@[simp] theorem setCause_bs (k : Nat) : (setCause k s).bs = s.bs := rfl
@[simp] theorem setCause_boot (k : Nat) : (setCause k s).boot = s.boot := rfl
@[simp] theorem setCause_pwr (k : Nat) : (setCause k s).pwr = s.pwr := rfl
@[simp] theorem setCause_srst (k : Nat) : (setCause k s).srst = s.srst := rfl
@[simp] theorem setCause_pd (k : Nat) : (setCause k s).pd = s.pd := rfl
@[simp] theorem setCause_mon (k : Nat) : (setCause k s).mon = s.mon := rfl
@[simp] theorem setCause_gate (k : Nat) : (setCause k s).gate = s.gate := rfl
@[simp] theorem setCause_tiles (k : Nat) : (setCause k s).tiles = s.tiles := rfl
@[simp] theorem setCause_gl (k : Nat) : (setCause k s).gl = s.gl := rfl
@[simp] theorem setCause_dig (k : Nat) : (setCause k s).dig = s.dig := rfl
@[simp] theorem setCause_com (k : Nat) : (setCause k s).com = s.com := rfl
@[simp] theorem setCause_roll (k : Nat) : (setCause k s).roll = s.roll := rfl
@[simp] theorem setCause_cfg (k : Nat) : (setCause k s).cfg = s.cfg := rfl
@[simp] theorem setCause_test (k : Nat) : (setCause k s).test = s.test := rfl
@[simp] theorem setCause_free (k : Nat) : (setCause k s).free = s.free := rfl
@[simp] theorem setCause_pending (k : Nat) : (setCause k s).pending = s.pending := rfl

/-! ### raiseEvent -/

@[simp] theorem raiseEvent_clk (e : Event) : (raiseEvent e s).clk = s.clk := rfl
@[simp] theorem raiseEvent_irq (e : Event) : (raiseEvent e s).irq = s.irq := rfl
@[simp] theorem raiseEvent_flog (e : Event) : (raiseEvent e s).flog = s.flog := rfl
@[simp] theorem raiseEvent_lines (e : Event) : (raiseEvent e s).lines = s.lines := rfl
@[simp] theorem raiseEvent_loadTill (e : Event) : (raiseEvent e s).loadTill = s.loadTill := rfl
@[simp] theorem raiseEvent_shadow (e : Event) : (raiseEvent e s).shadow = s.shadow := rfl
@[simp] theorem raiseEvent_before (e : Event) : (raiseEvent e s).before = s.before := rfl
@[simp] theorem raiseEvent_start (e : Event) : (raiseEvent e s).start = s.start := rfl
@[simp] theorem raiseEvent_routes (e : Event) : (raiseEvent e s).routes = s.routes := rfl
@[simp] theorem raiseEvent_shadowOld (e : Event) : (raiseEvent e s).shadowOld = s.shadowOld := rfl
@[simp] theorem raiseEvent_chans (e : Event) : (raiseEvent e s).chans = s.chans := rfl
@[simp] theorem raiseEvent_movers (e : Event) : (raiseEvent e s).movers = s.movers := rfl
@[simp] theorem raiseEvent_ures (e : Event) : (raiseEvent e s).ures = s.ures := rfl
@[simp] theorem raiseEvent_tres (e : Event) : (raiseEvent e s).tres = s.tres := rfl
@[simp] theorem raiseEvent_ports (e : Event) : (raiseEvent e s).ports = s.ports := rfl
@[simp] theorem raiseEvent_pegSh (e : Event) : (raiseEvent e s).pegSh = s.pegSh := rfl
@[simp] theorem raiseEvent_pegAct (e : Event) : (raiseEvent e s).pegAct = s.pegAct := rfl
@[simp] theorem raiseEvent_pegCommits (e : Event) : (raiseEvent e s).pegCommits = s.pegCommits := rfl
@[simp] theorem raiseEvent_wins (e : Event) : (raiseEvent e s).wins = s.wins := rfl
@[simp] theorem raiseEvent_nvwins (e : Event) : (raiseEvent e s).nvwins = s.nvwins := rfl
@[simp] theorem raiseEvent_prog (e : Event) : (raiseEvent e s).prog = s.prog := rfl
@[simp] theorem raiseEvent_cmd (e : Event) : (raiseEvent e s).cmd = s.cmd := rfl
@[simp] theorem raiseEvent_bs (e : Event) : (raiseEvent e s).bs = s.bs := rfl
@[simp] theorem raiseEvent_boot (e : Event) : (raiseEvent e s).boot = s.boot := rfl
@[simp] theorem raiseEvent_pwr (e : Event) : (raiseEvent e s).pwr = s.pwr := rfl
@[simp] theorem raiseEvent_srst (e : Event) : (raiseEvent e s).srst = s.srst := rfl
@[simp] theorem raiseEvent_pd (e : Event) : (raiseEvent e s).pd = s.pd := rfl
@[simp] theorem raiseEvent_mon (e : Event) : (raiseEvent e s).mon = s.mon := rfl
@[simp] theorem raiseEvent_gate (e : Event) : (raiseEvent e s).gate = s.gate := rfl
@[simp] theorem raiseEvent_tiles (e : Event) : (raiseEvent e s).tiles = s.tiles := rfl
@[simp] theorem raiseEvent_gl (e : Event) : (raiseEvent e s).gl = s.gl := rfl
@[simp] theorem raiseEvent_dig (e : Event) : (raiseEvent e s).dig = s.dig := rfl
@[simp] theorem raiseEvent_com (e : Event) : (raiseEvent e s).com = s.com := rfl
@[simp] theorem raiseEvent_roll (e : Event) : (raiseEvent e s).roll = s.roll := rfl
@[simp] theorem raiseEvent_cfg (e : Event) : (raiseEvent e s).cfg = s.cfg := rfl
@[simp] theorem raiseEvent_test (e : Event) : (raiseEvent e s).test = s.test := rfl
@[simp] theorem raiseEvent_free (e : Event) : (raiseEvent e s).free = s.free := rfl
@[simp] theorem raiseEvent_pending (e : Event) : (raiseEvent e s).pending = s.pending := rfl

/-! ### Numbered parts after updates -/

theorem chan_setChan (c k : Nat) (v : Channel) : chan (setChan c v s) k = if k = c then v else chan s k :=
  get_put s.chans c k v
@[simp] theorem chan_setChan_self (c : Nat) (v : Channel) : chan (setChan c v s) c = v := by simp [chan_setChan]
theorem chan_setChan_ne {c k : Nat} (v : Channel) (h : k ≠ c) : chan (setChan c v s) k = chan s k := by
  simp [chan_setChan, h]
theorem chan_updChan (c k : Nat) (f : Channel → Channel) :
    chan (updChan c f s) k = if k = c then f (chan s c) else chan s k := chan_setChan s c k _
@[simp] theorem chan_updChan_self (c : Nat) (f : Channel → Channel) : chan (updChan c f s) c = f (chan s c) := by
  simp [chan_updChan]
theorem chan_updChan_ne {c k : Nat} (f : Channel → Channel) (h : k ≠ c) : chan (updChan c f s) k = chan s k := by
  simp [chan_updChan, h]
theorem port_setPort (n k : Nat) (v : Port) : port (setPort n v s) k = if k = n then v else port s k :=
  get_put s.ports n k v
@[simp] theorem port_setPort_self (n : Nat) (v : Port) : port (setPort n v s) n = v := by simp [port_setPort]
theorem port_setPort_ne {n k : Nat} (v : Port) (h : k ≠ n) : port (setPort n v s) k = port s k := by
  simp [port_setPort, h]
theorem port_updPort (n k : Nat) (f : Port → Port) :
    port (updPort n f s) k = if k = n then f (port s n) else port s k := port_setPort s n k _
@[simp] theorem port_updPort_self (n : Nat) (f : Port → Port) : port (updPort n f s) n = f (port s n) := by
  simp [port_updPort]
theorem port_updPort_ne {n k : Nat} (f : Port → Port) (h : k ≠ n) : port (updPort n f s) k = port s k := by
  simp [port_updPort, h]
theorem mover_setMover (m k : Nat) (v : Mover) : mover (setMover m v s) k = if k = m then v else mover s k :=
  get_put s.movers m k v
theorem tile_setTile (g k : Nat) (v : Tile) : tile (setTile g v s) k = if k = g then v else tile s k :=
  get_put s.tiles g k v
@[simp] theorem tile_setTile_self (g : Nat) (v : Tile) : tile (setTile g v s) g = v := by simp [tile_setTile]
theorem tileRec_setTileRec (g k : Nat) (v : TileRec) :
    tileRec (setTileRec g v s) k = if k = g then v else tileRec s k := get_put s.gate.recs g k v
theorem line_setLine (n k : Nat) (v : ReqLine) : line (setLine n v s) k = if k = n then v else line s k :=
  get_put s.lines n k v
@[simp] theorem line_setLine_self (n : Nat) (v : ReqLine) : line (setLine n v s) n = v := by simp [line_setLine]

@[simp] theorem port_setChan (c : Nat) (v : Channel) (i : Nat) : port (setChan c v s) i = port s i := rfl
@[simp] theorem mover_setChan (c : Nat) (v : Channel) (i : Nat) : mover (setChan c v s) i = mover s i := rfl
@[simp] theorem tile_setChan (c : Nat) (v : Channel) (i : Nat) : tile (setChan c v s) i = tile s i := rfl
@[simp] theorem tileRec_setChan (c : Nat) (v : Channel) (i : Nat) : tileRec (setChan c v s) i = tileRec s i := rfl
@[simp] theorem line_setChan (c : Nat) (v : Channel) (i : Nat) : line (setChan c v s) i = line s i := rfl
@[simp] theorem port_updChan (c : Nat) (f : Channel → Channel) (i : Nat) : port (updChan c f s) i = port s i := rfl
@[simp] theorem mover_updChan (c : Nat) (f : Channel → Channel) (i : Nat) : mover (updChan c f s) i = mover s i := rfl
@[simp] theorem tile_updChan (c : Nat) (f : Channel → Channel) (i : Nat) : tile (updChan c f s) i = tile s i := rfl
@[simp] theorem tileRec_updChan (c : Nat) (f : Channel → Channel) (i : Nat) : tileRec (updChan c f s) i = tileRec s i := rfl
@[simp] theorem line_updChan (c : Nat) (f : Channel → Channel) (i : Nat) : line (updChan c f s) i = line s i := rfl
@[simp] theorem chan_setPort (n : Nat) (v : Port) (i : Nat) : chan (setPort n v s) i = chan s i := rfl
@[simp] theorem mover_setPort (n : Nat) (v : Port) (i : Nat) : mover (setPort n v s) i = mover s i := rfl
@[simp] theorem tile_setPort (n : Nat) (v : Port) (i : Nat) : tile (setPort n v s) i = tile s i := rfl
@[simp] theorem tileRec_setPort (n : Nat) (v : Port) (i : Nat) : tileRec (setPort n v s) i = tileRec s i := rfl
@[simp] theorem line_setPort (n : Nat) (v : Port) (i : Nat) : line (setPort n v s) i = line s i := rfl
@[simp] theorem chan_updPort (n : Nat) (f : Port → Port) (i : Nat) : chan (updPort n f s) i = chan s i := rfl
@[simp] theorem mover_updPort (n : Nat) (f : Port → Port) (i : Nat) : mover (updPort n f s) i = mover s i := rfl
@[simp] theorem tile_updPort (n : Nat) (f : Port → Port) (i : Nat) : tile (updPort n f s) i = tile s i := rfl
@[simp] theorem tileRec_updPort (n : Nat) (f : Port → Port) (i : Nat) : tileRec (updPort n f s) i = tileRec s i := rfl
@[simp] theorem line_updPort (n : Nat) (f : Port → Port) (i : Nat) : line (updPort n f s) i = line s i := rfl
@[simp] theorem chan_setMover (m : Nat) (v : Mover) (i : Nat) : chan (setMover m v s) i = chan s i := rfl
@[simp] theorem port_setMover (m : Nat) (v : Mover) (i : Nat) : port (setMover m v s) i = port s i := rfl
@[simp] theorem tile_setMover (m : Nat) (v : Mover) (i : Nat) : tile (setMover m v s) i = tile s i := rfl
@[simp] theorem tileRec_setMover (m : Nat) (v : Mover) (i : Nat) : tileRec (setMover m v s) i = tileRec s i := rfl
@[simp] theorem line_setMover (m : Nat) (v : Mover) (i : Nat) : line (setMover m v s) i = line s i := rfl
@[simp] theorem chan_setTile (g : Nat) (v : Tile) (i : Nat) : chan (setTile g v s) i = chan s i := rfl
@[simp] theorem port_setTile (g : Nat) (v : Tile) (i : Nat) : port (setTile g v s) i = port s i := rfl
@[simp] theorem mover_setTile (g : Nat) (v : Tile) (i : Nat) : mover (setTile g v s) i = mover s i := rfl
@[simp] theorem tileRec_setTile (g : Nat) (v : Tile) (i : Nat) : tileRec (setTile g v s) i = tileRec s i := rfl
@[simp] theorem line_setTile (g : Nat) (v : Tile) (i : Nat) : line (setTile g v s) i = line s i := rfl
@[simp] theorem chan_setTileRec (g : Nat) (v : TileRec) (i : Nat) : chan (setTileRec g v s) i = chan s i := rfl
@[simp] theorem port_setTileRec (g : Nat) (v : TileRec) (i : Nat) : port (setTileRec g v s) i = port s i := rfl
@[simp] theorem mover_setTileRec (g : Nat) (v : TileRec) (i : Nat) : mover (setTileRec g v s) i = mover s i := rfl
@[simp] theorem tile_setTileRec (g : Nat) (v : TileRec) (i : Nat) : tile (setTileRec g v s) i = tile s i := rfl
@[simp] theorem line_setTileRec (g : Nat) (v : TileRec) (i : Nat) : line (setTileRec g v s) i = line s i := rfl
@[simp] theorem chan_setLine (n : Nat) (v : ReqLine) (i : Nat) : chan (setLine n v s) i = chan s i := rfl
@[simp] theorem port_setLine (n : Nat) (v : ReqLine) (i : Nat) : port (setLine n v s) i = port s i := rfl
@[simp] theorem mover_setLine (n : Nat) (v : ReqLine) (i : Nat) : mover (setLine n v s) i = mover s i := rfl
@[simp] theorem tile_setLine (n : Nat) (v : ReqLine) (i : Nat) : tile (setLine n v s) i = tile s i := rfl
@[simp] theorem tileRec_setLine (n : Nat) (v : ReqLine) (i : Nat) : tileRec (setLine n v s) i = tileRec s i := rfl
@[simp] theorem chan_takeFree  (i : Nat) : chan (takeFree s) i = chan s i := rfl
@[simp] theorem port_takeFree  (i : Nat) : port (takeFree s) i = port s i := rfl
@[simp] theorem mover_takeFree  (i : Nat) : mover (takeFree s) i = mover s i := rfl
@[simp] theorem tile_takeFree  (i : Nat) : tile (takeFree s) i = tile s i := rfl
@[simp] theorem tileRec_takeFree  (i : Nat) : tileRec (takeFree s) i = tileRec s i := rfl
@[simp] theorem line_takeFree  (i : Nat) : line (takeFree s) i = line s i := rfl
@[simp] theorem chan_noteSet (w b : Nat) (i : Nat) : chan (noteSet w b s) i = chan s i := rfl
@[simp] theorem port_noteSet (w b : Nat) (i : Nat) : port (noteSet w b s) i = port s i := rfl
@[simp] theorem mover_noteSet (w b : Nat) (i : Nat) : mover (noteSet w b s) i = mover s i := rfl
@[simp] theorem tile_noteSet (w b : Nat) (i : Nat) : tile (noteSet w b s) i = tile s i := rfl
@[simp] theorem tileRec_noteSet (w b : Nat) (i : Nat) : tileRec (noteSet w b s) i = tileRec s i := rfl
@[simp] theorem line_noteSet (w b : Nat) (i : Nat) : line (noteSet w b s) i = line s i := rfl
@[simp] theorem chan_setCause (k : Nat) (i : Nat) : chan (setCause k s) i = chan s i := rfl
@[simp] theorem port_setCause (k : Nat) (i : Nat) : port (setCause k s) i = port s i := rfl
@[simp] theorem mover_setCause (k : Nat) (i : Nat) : mover (setCause k s) i = mover s i := rfl
@[simp] theorem tile_setCause (k : Nat) (i : Nat) : tile (setCause k s) i = tile s i := rfl
@[simp] theorem tileRec_setCause (k : Nat) (i : Nat) : tileRec (setCause k s) i = tileRec s i := rfl
@[simp] theorem line_setCause (k : Nat) (i : Nat) : line (setCause k s) i = line s i := rfl
@[simp] theorem chan_raiseEvent (e : Event) (i : Nat) : chan (raiseEvent e s) i = chan s i := rfl
@[simp] theorem port_raiseEvent (e : Event) (i : Nat) : port (raiseEvent e s) i = port s i := rfl
@[simp] theorem mover_raiseEvent (e : Event) (i : Nat) : mover (raiseEvent e s) i = mover s i := rfl
@[simp] theorem tile_raiseEvent (e : Event) (i : Nat) : tile (raiseEvent e s) i = tile s i := rfl
@[simp] theorem tileRec_raiseEvent (e : Event) (i : Nat) : tileRec (raiseEvent e s) i = tileRec s i := rfl
@[simp] theorem line_raiseEvent (e : Event) (i : Nat) : line (raiseEvent e s) i = line s i := rfl

end Sys2Proof.Machine
end

