-- ==== Sys2Proof/Laws/Ops.lean ====
section
/-! SUPPORT. What the shared operations can do, once for each: the parts that none of them touches, that each keeps the
canonical forms and the length of the fault log (`Keeps`), and what a halt, a park and the end of a command leave. -/

namespace Sys2Proof.Machine

/-! ### What every operation on channels and ports keeps -/

/-- Both RAMs stand as they were; the list of channels stays canonical and the fault log within its 64 entries. -/
structure Keeps (s t : State) : Prop where
  prog : t.prog = s.prog
  buf  : t.cmd.buf = s.cmd.buf
  chans : canon ({} : Channel) s.chans = true → canon ({} : Channel) t.chans = true
  log  : s.flog.entries.length ≤ 64 → t.flog.entries.length ≤ 64

theorem Keeps.refl (s : State) : Keeps s s := ⟨rfl, rfl, id, id⟩

theorem Keeps.trans {s t u : State} (h : Keeps s t) (k : Keeps t u) : Keeps s u :=
  ⟨k.prog.trans h.prog, k.buf.trans h.buf, k.chans ∘ h.chans, k.log ∘ h.log⟩

/-- An update of other fields keeps them. -/
theorem Keeps.of_eq {s t : State} (h1 : t.prog = s.prog) (h2 : t.cmd.buf = s.cmd.buf) (h3 : t.chans = s.chans)
    (h4 : t.flog = s.flog) : Keeps s t := ⟨h1, h2, fun h => h3 ▸ h, fun h => h4 ▸ h⟩

/-- An operation applied along a list keeps them if each application does. -/
theorem Keeps.foldl {β : Type} (f : State → β → State) (h : ∀ s b, Keeps s (f s b)) (l : List β) (s : State) :
    Keeps s (l.foldl f s) := by
  induction l generalizing s with
  | nil => exact .refl s
  | cons b r ih => exact (h s b).trans (ih _)

/-- A choice keeps them if both sides do. -/
theorem Keeps.ite {s t u : State} {p : Prop} [Decidable p] (h : Keeps s t) (k : Keeps s u) :
    Keeps s (if p then t else u) := by split <;> assumption

theorem keeps_setChan (c : Nat) (v : Channel) (s : State) : Keeps s (setChan c v s) :=
  ⟨rfl, rfl, fun h => canon_put c v h, id⟩

theorem keeps_updChan (c : Nat) (f : Channel → Channel) (s : State) : Keeps s (updChan c f s) := keeps_setChan _ _ _

theorem keeps_setPort (n : Nat) (v : Port) (s : State) : Keeps s (setPort n v s) := ⟨rfl, rfl, id, id⟩

theorem keeps_updPort (n : Nat) (f : Port → Port) (s : State) : Keeps s (updPort n f s) := ⟨rfl, rfl, id, id⟩

theorem keeps_setMover (m : Nat) (v : Mover) (s : State) : Keeps s (setMover m v s) := ⟨rfl, rfl, id, id⟩

theorem keeps_setLine (n : Nat) (v : ReqLine) (s : State) : Keeps s (setLine n v s) := ⟨rfl, rfl, id, id⟩

theorem keeps_setTile (g : Nat) (v : Tile) (s : State) : Keeps s (setTile g v s) := ⟨rfl, rfl, id, id⟩

theorem keeps_setTileRec (g : Nat) (v : TileRec) (s : State) : Keeps s (setTileRec g v s) := ⟨rfl, rfl, id, id⟩

theorem keeps_takeFree (s : State) : Keeps s (takeFree s) := ⟨rfl, rfl, id, id⟩

theorem keeps_noteSet (w b : Nat) (s : State) : Keeps s (noteSet w b s) := ⟨rfl, rfl, id, id⟩

theorem keeps_setCause (k : Nat) (s : State) : Keeps s (setCause k s) := ⟨rfl, rfl, id, id⟩

theorem keeps_raiseEvent (e : Event) (s : State) : Keeps s (raiseEvent e s) := ⟨rfl, rfl, id, id⟩

/-! ### The fault log (09 R243) -/

@[simp] theorem logFault_chans (e : LogEntry) (s : State) : (logFault e s).chans = s.chans := by
  unfold logFault; split <;> rfl
@[simp] theorem logFault_ports (e : LogEntry) (s : State) : (logFault e s).ports = s.ports := by
  unfold logFault; split <;> rfl
@[simp] theorem logFault_movers (e : LogEntry) (s : State) : (logFault e s).movers = s.movers := by
  unfold logFault; split <;> rfl
@[simp] theorem logFault_clk (e : LogEntry) (s : State) : (logFault e s).clk = s.clk := by
  unfold logFault; split <;> rfl
@[simp] theorem logFault_prog (e : LogEntry) (s : State) : (logFault e s).prog = s.prog := by
  unfold logFault; split <;> rfl
@[simp] theorem logFault_cmd (e : LogEntry) (s : State) : (logFault e s).cmd = s.cmd := by
  unfold logFault; split <;> rfl
@[simp] theorem logFault_ev (e : LogEntry) (s : State) : (logFault e s).ev = s.ev := by
  unfold logFault; split <;> rfl
@[simp] theorem logFault_pwr (e : LogEntry) (s : State) : (logFault e s).pwr = s.pwr := by
  unfold logFault; split <;> rfl
@[simp] theorem logFault_lines (e : LogEntry) (s : State) : (logFault e s).lines = s.lines := by
  unfold logFault; split <;> rfl
@[simp] theorem chan_logFault (e : LogEntry) (s : State) (c : Nat) : chan (logFault e s) c = chan s c := by simp [chan]
@[simp] theorem port_logFault (e : LogEntry) (s : State) (n : Nat) : port (logFault e s) n = port s n := by simp [port]

/-- Writing an entry into a log that has room: one entry more, that entry among them with the present time. -/
theorem logFault_room (e : LogEntry) (s : State) (h : s.flog.entries.length < 64) :
    (logFault e s).flog.entries.length = s.flog.entries.length + 1 ∧
    { e with time := fld s.clk.ridge 0 32 } ∈ (logFault e s).flog.entries := by
  have h' : ¬ 64 ≤ s.flog.entries.length := by omega
  simp only [logFault, h', if_false]
  constructor
  · simp only [List.length_append, List.length_take, length_insertBy, List.length_drop]
    omega
  · exact List.mem_append_right _ (mem_insertBy.2 (.inl rfl))

/-- A full log stays at its 64 entries. -/
theorem logFault_full (e : LogEntry) (s : State) (h : 64 ≤ s.flog.entries.length) :
    (logFault e s).flog.entries.length ≤ 64 := by
  simp only [logFault, h, if_true, loseEntry, setCause, noteSet, List.length_take]
  omega

theorem keeps_logFault (e : LogEntry) (s : State) : Keeps s (logFault e s) := by
  refine ⟨by simp, by simp, fun h => by simpa using h, fun h => ?_⟩
  by_cases hl : 64 ≤ s.flog.entries.length
  · exact logFault_full e s hl
  · rw [(logFault_room e s (by omega)).1]; omega

theorem keeps_oweLog (kind : BitVec 5) (ch : Nat) (r : FaultRec) (s : State) : Keeps s (oweLog kind ch r s) :=
  keeps_updChan _ _ _

theorem keeps_countHalt (e : LogEntry) (s : State) : Keeps s (countHalt e s) := by
  unfold countHalt; split
  · exact ⟨rfl, rfl, id, id⟩
  · exact .refl s

@[simp] theorem countHalt_chans (e : LogEntry) (s : State) : (countHalt e s).chans = s.chans := by
  unfold countHalt; split <;> rfl
@[simp] theorem countHalt_flog (e : LogEntry) (s : State) : (countHalt e s).flog = s.flog := by
  unfold countHalt; split <;> rfl

theorem keeps_payLog (e : LogEntry) (s : State) : Keeps s (payLog e s) := by
  unfold payLog
  simp only []
  split
  · exact (keeps_logFault _ _).trans ((keeps_setCause _ _).trans (keeps_countHalt _ _))
  · exact keeps_logFault _ _

theorem keeps_payLogs (s : State) (ch : Nat) : Keeps s (payLogs s ch) :=
  (Keeps.foldl _ (fun s e => keeps_payLog e s) _ s).trans (keeps_updChan _ _ _)

/-- Paying an entry is `logFault`, but for the cause and the count of a halt. -/
@[simp] theorem payLog_flog (e : LogEntry) (s : State) : (payLog e s).flog = (logFault e s).flog := by
  unfold payLog; simp only []; split <;> simp
@[simp] theorem payLog_chans (e : LogEntry) (s : State) : (payLog e s).chans = s.chans := by
  unfold payLog; simp only []; split <;> simp

/-- Freeing the oldest entry. -/
theorem popLog_entries (s : State) : (popLog s).flog.entries = s.flog.entries.tail := by
  unfold popLog
  split
  · rename_i h; simp [h]
  · rename_i h; simp [h]

theorem keeps_popLog (s : State) : Keeps s (popLog s) := by
  refine ⟨?_, ?_, fun h => ?_, fun h => ?_⟩
  · unfold popLog; split <;> rfl
  · unfold popLog; split <;> rfl
  · unfold popLog; split <;> exact h
  · rw [popLog_entries, List.length_tail]; omega

theorem keeps_countCorrection (src : BitVec 3) (s : State) : Keeps s (countCorrection src s) := by
  unfold countCorrection growCount
  simp only []
  split
  · exact ⟨rfl, rfl, id, id⟩
  · exact ⟨rfl, rfl, id, id⟩

/-! ### Ports (07 R198; 08 R213) -/

theorem keeps_mapPorts (f : Port → Port) (s : State) : Keeps s (mapPorts f s) :=
  Keeps.foldl _ (fun s n => keeps_updPort n f s) _ s

theorem foldl_updPort_chans (f : Port → Port) (l : List Nat) (s : State) :
    (l.foldl (fun s n => updPort n f s) s).chans = s.chans := by
  induction l generalizing s with
  | nil => rfl
  | cons n r ih => exact (ih _).trans rfl

theorem foldl_updPort_movers (f : Port → Port) (l : List Nat) (s : State) :
    (l.foldl (fun s n => updPort n f s) s).movers = s.movers := by
  induction l generalizing s with
  | nil => rfl
  | cons n r ih => exact (ih _).trans rfl

@[simp] theorem mapPorts_chans (f : Port → Port) (s : State) : (mapPorts f s).chans = s.chans := foldl_updPort_chans _ _ _
@[simp] theorem mapPorts_movers (f : Port → Port) (s : State) : (mapPorts f s).movers = s.movers := foldl_updPort_movers _ _ _
@[simp] theorem chan_mapPorts (f : Port → Port) (s : State) (c : Nat) : chan (mapPorts f s) c = chan s c := by simp [chan]

/-- Every master port is changed alike; a number beyond them is left. -/
theorem port_mapPorts (f : Port → Port) (s : State) (n : Nat) :
    port (mapPorts f s) n = if n < 8 then f (port s n) else port s n := by
  simp only [mapPorts, portRange, show List.range 8 = [0, 1, 2, 3, 4, 5, 6, 7] from rfl, List.foldl_cons, List.foldl_nil,
    port_updPort]
  by_cases h : n < 8
  · have : n = 0 ∨ n = 1 ∨ n = 2 ∨ n = 3 ∨ n = 4 ∨ n = 5 ∨ n = 6 ∨ n = 7 := by omega
    rcases this with rfl | rfl | rfl | rfl | rfl | rfl | rfl | rfl <;> simp
  · have h0 : n ≠ 0 ∧ n ≠ 1 ∧ n ≠ 2 ∧ n ≠ 3 ∧ n ≠ 4 ∧ n ≠ 5 ∧ n ≠ 6 ∧ n ≠ 7 := by omega
    simp [h, h0]

@[simp] theorem endTags_chans (ch : Nat) (s : State) : (endTags ch s).chans = s.chans := mapPorts_chans _ _
@[simp] theorem staleFetch_chans (ch : Nat) (s : State) : (staleFetch ch s).chans = s.chans := mapPorts_chans _ _
@[simp] theorem chan_endTags (ch : Nat) (s : State) (c : Nat) : chan (endTags ch s) c = chan s c := by simp [chan]
@[simp] theorem chan_staleFetch (ch : Nat) (s : State) (c : Nat) : chan (staleFetch ch s) c = chan s c := by simp [chan]

theorem keeps_endTags (ch : Nat) (s : State) : Keeps s (endTags ch s) := keeps_mapPorts _ _
theorem keeps_staleFetch (ch : Nat) (s : State) : Keeps s (staleFetch ch s) := keeps_mapPorts _ _
theorem keeps_withdraw (ch : Nat) (s : State) : Keeps s (withdraw ch s) := by
  unfold withdraw
  exact (keeps_mapPorts _ s).trans (keeps_updChan _ _ _)

/-- Withdrawing a channel's requests changes its run only. -/
theorem chan_withdraw_ne {ch k : Nat} (s : State) (h : k ≠ ch) : chan (withdraw ch s) k = chan s k := by
  simp [withdraw, chan_updChan, h]

theorem chan_withdraw_run (ch : Nat) (s : State) :
    { chan (withdraw ch s) ch with run := none } = { chan s ch with run := none } := by
  simp [withdraw]

/-! ### The mailbox (13 R334) -/

/-- What the end of a command leaves: BUSY 0, DONE or ERR, the code and the results; the buffer, token and opcode stay. -/
theorem finish_cmd (code : BitVec 8) (r : Results) (s : State) :
    (finish code r s).cmd = { s.cmd with busy := false, done := decide (code = 0), err := decide (code ≠ 0), code := code,
                                         res := r, job := .none } := rfl

@[simp] theorem finish_chans (code : BitVec 8) (r : Results) (s : State) : (finish code r s).chans = s.chans := rfl
@[simp] theorem finish_ports (code : BitVec 8) (r : Results) (s : State) : (finish code r s).ports = s.ports := rfl
@[simp] theorem finish_prog (code : BitVec 8) (r : Results) (s : State) : (finish code r s).prog = s.prog := rfl
@[simp] theorem finish_flog (code : BitVec 8) (r : Results) (s : State) : (finish code r s).flog = s.flog := rfl
@[simp] theorem finish_dig (code : BitVec 8) (r : Results) (s : State) : (finish code r s).dig = s.dig := rfl
@[simp] theorem finish_clk (code : BitVec 8) (r : Results) (s : State) : (finish code r s).clk = s.clk := rfl

theorem keeps_finish (code : BitVec 8) (r : Results) (s : State) : Keeps s (finish code r s) := ⟨rfl, rfl, id, id⟩

/-- What the end of a ccyc makes of a PARK in progress (13 R338): nothing, or its end with a code. -/
theorem endPark_eq (s : State) : endPark s = s ∨ ∃ code, endPark s = finish code {} s := by
  unfold endPark
  split
  · split <;> first | exact .inl rfl | exact .inr ⟨_, rfl⟩
  · exact .inl rfl

theorem keeps_endPark (s : State) : Keeps s (endPark s) := by
  rcases endPark_eq s with h | ⟨c, h⟩ <;> rw [h]
  · exact .refl s
  · exact keeps_finish _ _ _

@[simp] theorem endPark_chans (s : State) : (endPark s).chans = s.chans := by
  rcases endPark_eq s with h | ⟨c, h⟩ <;> rw [h]; rfl

theorem keeps_pruneQuiesces (s : State) : Keeps s (pruneQuiesces s) := ⟨rfl, rfl, id, id⟩

/-- The end of a ccyc writes the log only. -/
theorem keeps_sealCcyc (s : State) : Keeps s (sealCcyc s) := by
  have h := Keeps.foldl _ (fun s ch => keeps_payLogs s ch) (chansWhere s fun _ c => unsealed c) s
  unfold sealCcyc
  generalize (chansWhere s fun _ c => unsealed c).foldl payLogs s = t at *
  have k : Keeps (endPark t) { endPark t with before := [], ev := { t.ev with direct := [] } } := ⟨rfl, rfl, id, id⟩
  exact h.trans ((keeps_endPark t).trans (k.trans (keeps_pruneQuiesces _)))

/-! ### Channel states (04 Table 4.9) -/

theorem keeps_goReady (ch : Nat) (s : State) : Keeps s (goReady ch s) := keeps_updChan _ _ _
theorem keeps_completeWait (ch : Nat) (s : State) : Keeps s (completeWait ch s) :=
  (keeps_updChan _ _ _).trans (keeps_goReady _ _)
theorem keeps_endAbort (ch : Nat) (s : State) : Keeps s (endAbort ch s) := keeps_updChan _ _ _
theorem keeps_startChannel (ch : Nat) (s : State) : Keeps s (startChannel ch s) :=
  (keeps_updChan _ _ _).trans (keeps_goReady _ _)
theorem keeps_enableChannel (ch : Nat) (s : State) : Keeps s (enableChannel ch s) := by
  unfold enableChannel
  simp only []
  split
  · split
    · split
      · exact keeps_setChan _ _ _
      · exact keeps_startChannel _ _
    · split
      · exact keeps_setChan _ _ _
      · exact .refl s
  · exact .refl s

@[simp] theorem goReady_st (ch : Nat) (s : State) : (chan (goReady ch s) ch).st = .ready := by simp [goReady]
@[simp] theorem goReady_pc (ch : Nat) (s : State) : (chan (goReady ch s) ch).pc = (chan s ch).pc := by simp [goReady]
theorem chan_goReady_ne {ch k : Nat} (s : State) (h : k ≠ ch) : chan (goReady ch s) k = chan s k := by
  simp [goReady, chan_updChan, h]
theorem chan_completeWait_ne {ch k : Nat} (s : State) (h : k ≠ ch) : chan (completeWait ch s) k = chan s k := by
  simp [completeWait, chan_goReady_ne, chan_updChan, h]
@[simp] theorem refill_pc (s : State) (c : Channel) : (refill s c).pc = c.pc := by unfold refill; split <;> rfl
@[simp] theorem refill_st (s : State) (c : Channel) : (refill s c).st = c.st := by unfold refill; split <;> rfl
@[simp] theorem refill_a (s : State) (c : Channel) : (refill s c).a = c.a := by unfold refill; split <;> rfl
@[simp] theorem refill_l (s : State) (c : Channel) : (refill s c).l = c.l := by unfold refill; split <;> rfl
/-- `remember` changes what is last known only. -/
theorem remember_eq (s : State) (c : Channel) : ∃ x, remember s c = { c with last := x } := by
  unfold remember; split
  · exact ⟨_, rfl⟩
  · exact ⟨c.last, rfl⟩
@[simp] theorem completeWait_pc (ch : Nat) (s : State) : (chan (completeWait ch s) ch).pc = (chan s ch).pc.plus 8 := by
  simp [completeWait, stepPc, refill_pc]

@[simp] theorem stepPc_pc (n : Nat) (c : Channel) : (stepPc n c).pc = c.pc.plus n := rfl
@[simp] theorem stepPc_a (n : Nat) (c : Channel) : (stepPc n c).a = c.a := rfl
@[simp] theorem stepPc_l (n : Nat) (c : Channel) : (stepPc n c).l = c.l := rfl
@[simp] theorem stepPc_st (n : Nat) (c : Channel) : (stepPc n c).st = c.st := rfl

/-! ### Halts (09 R224 to R229) -/

theorem keeps_dropClaim (ch : Nat) (s : State) : Keeps s (dropClaim ch s) := ⟨rfl, rfl, id, id⟩
@[simp] theorem dropClaim_chans (ch : Nat) (s : State) : (dropClaim ch s).chans = s.chans := rfl
@[simp] theorem chan_dropClaim (ch : Nat) (s : State) (c : Nat) : chan (dropClaim ch s) c = chan s c := rfl

/-- Noting how a channel stands changes nothing else. -/
theorem noteBefore_eq (ch : Nat) (s : State) : ∃ b, noteBefore ch s = { s with before := b } := by
  unfold noteBefore
  split
  · exact ⟨s.before, rfl⟩
  · exact ⟨_, rfl⟩

theorem keeps_noteBefore (ch : Nat) (s : State) : Keeps s (noteBefore ch s) := by
  obtain ⟨b, h⟩ := noteBefore_eq ch s
  rw [h]; exact ⟨rfl, rfl, id, id⟩
@[simp] theorem noteBefore_chans (ch : Nat) (s : State) : (noteBefore ch s).chans = s.chans := by
  obtain ⟨b, h⟩ := noteBefore_eq ch s
  rw [h]
@[simp] theorem noteBefore_ports (ch : Nat) (s : State) : (noteBefore ch s).ports = s.ports := by
  obtain ⟨b, h⟩ := noteBefore_eq ch s
  rw [h]
@[simp] theorem noteBefore_clk (ch : Nat) (s : State) : (noteBefore ch s).clk = s.clk := by
  obtain ⟨b, h⟩ := noteBefore_eq ch s
  rw [h]
@[simp] theorem chan_noteBefore (ch : Nat) (s : State) (k : Nat) : chan (noteBefore ch s) k = chan s k := by simp [chan]

theorem keeps_dropNote (ch : Nat) (s : State) : Keeps s (dropNote ch s) := ⟨rfl, rfl, id, id⟩

/-! ### What the present ccyc may take back of a channel (04 R99) -/

theorem keeps_raiseBy (ch : Nat) (e : Event) (s : State) : Keeps s (raiseBy ch e s) :=
  Keeps.trans (t := { s with ev := { s.ev with raised := insertNat e.toNat s.ev.raised } }) ⟨rfl, rfl, id, id⟩ (keeps_updChan _ _ _)

theorem keeps_takeBackRaises (ch : Nat) (s : State) : Keeps s (takeBackRaises ch s) := by
  unfold takeBackRaises
  refine Keeps.trans ?_ (keeps_updChan _ _ _)
  exact ⟨rfl, rfl, id, id⟩

theorem keeps_takeBackPulse (ch : Nat) (s : State) : Keeps s (takeBackPulse ch s) := by
  unfold takeBackPulse
  split
  · exact (keeps_setLine _ _ _).trans (keeps_updChan _ _ _)
  · exact .refl s

theorem keeps_markUnneeded (ch : Nat) (s : State) : Keeps s (markUnneeded ch s) := keeps_mapPorts _ _
@[simp] theorem markUnneeded_chans (ch : Nat) (s : State) : (markUnneeded ch s).chans = s.chans := mapPorts_chans _ _

theorem keeps_haltPrep (ch : Nat) (s : State) : Keeps s (haltPrep ch s) :=
  (keeps_withdraw ch s).trans ((keeps_markUnneeded _ _).trans ((keeps_staleFetch _ _).trans (keeps_dropClaim _ _)))

@[simp] theorem haltPrep_chans (ch : Nat) (s : State) : (haltPrep ch s).chans = (withdraw ch s).chans := by simp [haltPrep]
@[simp] theorem chan_haltPrep (ch : Nat) (s : State) (k : Nat) : chan (haltPrep ch s) k = chan (withdraw ch s) k := by
  simp [chan]

theorem keeps_haltCore (ch : Nat) (r : FaultRec) (s : State) : Keeps s (haltCore ch r s) :=
  (keeps_noteBefore _ _).trans ((keeps_haltPrep ch _).trans (keeps_updChan _ _ _))

/-- What the channel is on entering HALTED: its registers and progress stay as they are. -/
theorem haltedChan_fields (s : State) (ch : Nat) (r : FaultRec) (c : Channel) :
    (haltedChan s ch r c).st = .halted ∧
    (haltedChan s ch r c).faultInfo = { valid := true, port := r.port, detail := r.detail, dir := r.dir, cause := r.cause } ∧
    (haltedChan s ch r c).faultAddr = r.addr ∧ (haltedChan s ch r c).faultPc = c.pc ∧ (haltedChan s ch r c).pc = c.pc ∧
    (haltedChan s ch r c).a = c.a ∧ (haltedChan s ch r c).l = c.l ∧ (haltedChan s ch r c).haltPend = false ∧
    (haltedChan s ch r c).moveWr = c.moveWr ∧ (haltedChan s ch r c).moveRd = c.moveRd ∧
    (haltedChan s ch r c).inMove = c.inMove ∧ (haltedChan s ch r c).en = c.en ∧
    (haltedChan s ch r c).logs = c.logs ++ [recordEntry 1 ch r] := by
  obtain ⟨x, hx⟩ := remember_eq s c
  simp [haltedChan, hx]

/-- What `haltCore` does to the channels: the halted channel, and no other. -/
theorem haltCore_chans (ch : Nat) (r : FaultRec) (s : State) :
    (haltCore ch r s).chans = (updChan ch (haltedChan (haltPrep ch (noteBefore ch s)) ch r) (withdraw ch (noteBefore ch s))).chans := by
  simp [haltCore, updChan, setChan]

/-- Withdrawing changes none of a channel's registers. -/
theorem chan_withdraw_field {γ : Type} (p : Channel → γ) (hp : ∀ c : Channel, p { c with run := none } = p c) (ch : Nat)
    (s : State) : p (chan (withdraw ch s) ch) = p (chan s ch) := by
  rw [← hp, chan_withdraw_run ch s, hp]

/-- A halt changes no channel but its own. -/
theorem chan_haltCore_ne {ch k : Nat} (r : FaultRec) (s : State) (h : k ≠ ch) : chan (haltCore ch r s) k = chan s k := by
  rw [chan, haltCore_chans, ← chan, chan_updChan_ne _ _ h]
  exact (chan_withdraw_ne _ h).trans (chan_noteBefore _ _ _)

/-- The halted channel. -/
theorem chan_haltCore_self (ch : Nat) (r : FaultRec) (s : State) :
    chan (haltCore ch r s) ch = haltedChan (haltPrep ch (noteBefore ch s)) ch r (chan (withdraw ch (noteBefore ch s)) ch) := by
  rw [chan, haltCore_chans, ← chan, chan_updChan_self]

/-- What a halt latches (09 R224, R225): the record of the fault and CH_PC; the registers and progress stay. -/
theorem chan_haltCore (ch : Nat) (r : FaultRec) (s : State) :
    (chan (haltCore ch r s) ch).st = .halted ∧
    (chan (haltCore ch r s) ch).faultInfo = { valid := true, port := r.port, detail := r.detail, dir := r.dir, cause := r.cause } ∧
    (chan (haltCore ch r s) ch).faultAddr = r.addr ∧ (chan (haltCore ch r s) ch).faultPc = (chan s ch).pc ∧
    (chan (haltCore ch r s) ch).pc = (chan s ch).pc ∧ (chan (haltCore ch r s) ch).a = (chan s ch).a ∧
    (chan (haltCore ch r s) ch).l = (chan s ch).l ∧ (chan (haltCore ch r s) ch).haltPend = false ∧
    (chan (haltCore ch r s) ch).moveWr = (chan s ch).moveWr ∧ (chan (haltCore ch r s) ch).moveRd = (chan s ch).moveRd ∧
    (chan (haltCore ch r s) ch).inMove = (chan s ch).inMove ∧
    (chan (haltCore ch r s) ch).logs = (chan s ch).logs ++ [recordEntry 1 ch r] := by
  rw [chan_haltCore_self, ← chan_noteBefore ch s ch]
  obtain ⟨h1, h2, h3, h4, h5, h6, h7, h8, h9, h10, h11, -, h12⟩ :=
    haltedChan_fields (haltPrep ch (noteBefore ch s)) ch r (chan (withdraw ch (noteBefore ch s)) ch)
  have f : ∀ {γ : Type} (p : Channel → γ), (∀ c : Channel, p { c with run := none } = p c) → _ :=
    fun {γ} p hp => chan_withdraw_field (γ := γ) p hp ch (noteBefore ch s)
  exact ⟨h1, h2, h3, h4.trans (f (·.pc) fun _ => rfl), h5.trans (f (·.pc) fun _ => rfl), h6.trans (f (·.a) fun _ => rfl),
    h7.trans (f (·.l) fun _ => rfl), h8, h9.trans (f (·.moveWr) fun _ => rfl), h10.trans (f (·.moveRd) fun _ => rfl),
    h11.trans (f (·.inMove) fun _ => rfl), h12.trans (congrArg (· ++ _) (f (·.logs) fun _ => rfl))⟩

theorem keeps_raiseHeld (ch : Nat) (s : State) : Keeps s (raiseHeld ch s) := by
  unfold raiseHeld; split
  · exact .refl s
  · split
    · exact keeps_haltCore _ _ _
    · exact keeps_updChan _ _ _

theorem keeps_dropHolder (m : Nat) (s : State) : Keeps s (dropHolder m s) := keeps_mapPorts _ _

theorem keeps_releaseMover (m : Nat) (s : State) : Keeps s (releaseMover m s) := by
  unfold releaseMover
  refine (keeps_dropHolder m s).trans ?_
  generalize dropHolder m s = s
  dsimp only
  split
  · split
    · split
      · exact (keeps_setMover _ _ _).trans (keeps_raiseHeld _ _)
      · exact (keeps_dropClaim _ _).trans ((keeps_setMover _ _ _).trans (keeps_updChan _ _ _))
    · exact keeps_setMover _ _ _
  · exact keeps_setMover _ _ _

theorem keeps_releaseOf (ch : Nat) (s : State) : Keeps s (releaseOf ch s) := by
  unfold releaseOf; split
  · exact keeps_releaseMover _ _
  · exact .refl s

theorem keeps_enterHalt (ch : Nat) (r : FaultRec) (s : State) : Keeps s (enterHalt ch r s) :=
  (keeps_haltCore _ _ _).trans (keeps_releaseOf _ _)

theorem keeps_haltNow (ch : Nat) (r : FaultRec) (s : State) : Keeps s (haltNow ch r s) := by
  unfold haltNow
  refine Keeps.trans ?_ (keeps_enterHalt _ _ _)
  split
  · split
    · exact keeps_oweLog _ _ _ _
    · exact .refl s
  · exact .refl s

/-- A further response error of a halted channel: an entry owed to the log, or the latched fault of the ccyc replaced by it. -/
theorem keeps_secondError (ch : Nat) (r : FaultRec) (s : State) : Keeps s (secondError ch r s) := by
  unfold secondError
  split
  · split
    · simp only []
      split
      · exact (keeps_updChan _ _ _).trans (keeps_oweLog _ _ _ _)
      · exact keeps_updChan _ _ _
    · exact keeps_oweLog _ _ _ _
  · exact keeps_oweLog _ _ _ _

theorem keeps_showPend (ch : Nat) (s : State) : Keeps s (showPend ch s) := by
  unfold showPend; exact keeps_setChan _ _ _

theorem keeps_holdFault (ch : Nat) (r : FaultRec) (k : Nat) (s : State) : Keeps s (holdFault ch r k s) := by
  unfold holdFault
  simp only []
  split
  · split
    · split
      · exact (keeps_setChan _ _ _).trans (keeps_oweLog _ _ _ _)
      · exact keeps_setChan _ _ _
    · split
      · exact keeps_oweLog _ _ _ _
      · exact .refl s
  · exact (keeps_setChan _ _ _).trans (keeps_withdraw _ _)

theorem keeps_detect (ch : Nat) (r : FaultRec) (k : Nat) (s : State) : Keeps s (detect ch r k s) :=
  (keeps_holdFault _ _ _ _).trans (keeps_showPend _ _)

theorem keeps_enterHeld (ch : Nat) (s : State) : Keeps s (enterHeld ch s) := by
  unfold enterHeld; simp only []
  split
  · exact .refl s
  · split
    · exact keeps_enterHalt _ _ _
    · exact .refl s

theorem keeps_haltsDue (s : State) : Keeps s (haltsDue s) := Keeps.foldl _ (fun s ch => keeps_enterHeld ch s) _ s

/-! ### Parks, aborts, resets of a channel (09 R238, R241; 04 R98) -/

theorem keeps_enterPark (ch : Nat) (src : Bool) (s : State) : Keeps s (enterPark ch src s) := by
  unfold enterPark
  exact (keeps_noteBefore _ _).trans ((keeps_withdraw ch _).trans ((keeps_staleFetch _ _).trans ((keeps_dropClaim _ _).trans
    ((keeps_updChan _ _ _).trans (keeps_releaseOf _ _)))))

/-- Undoing the selection of the present ccyc: what came of it is taken back, the mover goes back. -/
theorem keeps_unselect (ch : Nat) (s : State) : Keeps s (unselect ch s) := by
  unfold unselect
  split
  · exact .refl s
  · exact ((keeps_withdraw _ _).trans ((keeps_takeBackRaises _ _).trans (keeps_takeBackPulse _ _))).trans
      ((keeps_updChan _ _ _).trans ((Keeps.ite (keeps_releaseOf _ _) (.refl _)).trans (keeps_dropNote _ _)))

theorem keeps_yieldProgress (ch : Nat) (s : State) : Keeps s (yieldProgress ch s) := by
  unfold yieldProgress
  split
  · exact .refl s
  · split
    · exact (keeps_updChan _ _ _).trans (keeps_dropNote _ _)
    · split
      · exact keeps_unselect _ _
      · exact .refl s

theorem keeps_yieldRaise (ch : Nat) (s : State) : Keeps s (yieldRaise ch s) := by
  unfold yieldRaise
  split
  · exact .refl s
  · split
    · exact (keeps_updChan _ _ _).trans (keeps_dropNote _ _)
    · exact .refl s

theorem keeps_yieldPark (ch : Nat) (s : State) : Keeps s (yieldPark ch s) := by
  unfold yieldPark
  split
  · split
    · simp only []
      split
      · split
        · exact (keeps_updChan _ _ _).trans (keeps_setMover _ _ _)
        · exact keeps_updChan _ _ _
      · exact keeps_updChan _ _ _
    · exact .refl s
  · exact .refl s

theorem keeps_unstop (ch : Nat) (s : State) : Keeps s (unstop ch s) := keeps_updChan _ _ _

theorem keeps_unstale (ch : Nat) (s : State) : Keeps s (unstale ch s) := by
  unfold unstale; exact Keeps.ite (keeps_takeBackRaises _ _) (.refl s)

/-- The steps of an abort before it asks for tags. -/
theorem keeps_abortPrep (ch : Nat) (s : State) : Keeps s (dropClaim ch (endTags ch (withdraw ch (unstale ch s)))) :=
  (keeps_unstale ch s).trans ((keeps_withdraw ch _).trans ((keeps_endTags _ _).trans (keeps_dropClaim _ _)))

theorem keeps_abort (ch : Nat) (s : State) : Keeps s (abort ch s) := by
  unfold abort
  refine (keeps_abortPrep ch s).trans ?_
  generalize dropClaim ch (endTags ch (withdraw ch (unstale ch s))) = t
  have h : Keeps t (releaseOf ch (dropNote ch (takeFree (takeFree (updChan ch (abortedChan t ch) t))))) :=
    (keeps_updChan _ _ _).trans ((keeps_takeFree _).trans ((keeps_takeFree _).trans
      ((keeps_dropNote _ _).trans (keeps_releaseOf _ _))))
  exact Keeps.ite (h.trans (keeps_endAbort _ _)) h

theorem keeps_clearLine (n : Nat) (s : State) : Keeps s (clearLine n s) := keeps_setLine _ _ _
theorem keeps_clearLinesOf (ch : Nat) (s : State) : Keeps s (clearLinesOf ch s) :=
  Keeps.foldl _ (fun s n => keeps_clearLine n s) _ s

theorem keeps_clearAllLines (s : State) : Keeps s (clearAllLines s) := ⟨rfl, rfl, id, id⟩

theorem keeps_startAgain (s : State) : Keeps s (startAgain s) := by
  refine Keeps.foldl _ (fun s ch => ?_) _ s
  split
  · exact keeps_startChannel _ _
  · exact keeps_updChan _ _ _

theorem keeps_resetChannel (ch : Nat) (s : State) : Keeps s (resetChannel ch s) := by
  unfold resetChannel
  have h : Keeps s (clearLinesOf ch (updChan ch (fun c => { c with resetting := true }) (unstop ch (yieldProgress ch s)))) :=
    (keeps_yieldProgress _ _).trans ((keeps_unstop _ _).trans ((keeps_updChan _ _ _).trans (keeps_clearLinesOf _ _)))
  simp only []
  split
  · exact h.trans (keeps_updChan _ _ _)
  · split
    · exact h.trans (keeps_endAbort _ _)
    · exact h.trans ((keeps_updChan _ _ _).trans (keeps_endTags _ _))
  · exact h.trans (keeps_abort _ _)

/-! ### The configuration port (15 R374) -/

/-- A host access that the port can serve takes effect, its answer on the way. -/
theorem hostAccess_ready (i : Instr) (f : State → State) (s : State) (ho : s.pwr.st ≠ .off) (hr : portReady s = true) :
    hostAccess i f s = f (answer 0 false s) := by simp [hostAccess, ho, hr]

/-- A host access that finds the port busy waits there, the last of those that wait. -/
theorem hostAccess_waits (i : Instr) (f : State → State) (s : State) (ho : s.pwr.st ≠ .off) (hr : portReady s = false) :
    hostAccess i f s = { s with cfg := { s.cfg with offered := s.cfg.offered ++ [i] } } := by simp [hostAccess, ho, hr]

theorem keeps_portOff (s : State) : Keeps s (portOff s) := by
  unfold portOff; split <;> exact ⟨rfl, rfl, id, id⟩

theorem keeps_answer (v : Word) (e : Bool) (s : State) : Keeps s (answer v e s) := ⟨rfl, rfl, id, id⟩

/-- A host access keeps what its effect keeps. -/
theorem keeps_hostAccess (i : Instr) (f : State → State) (hf : ∀ s, Keeps s (f s)) (s : State) : Keeps s (hostAccess i f s) := by
  unfold hostAccess
  split
  · exact keeps_portOff s
  · split
    · exact (keeps_answer _ _ _).trans (hf _)
    · exact ⟨rfl, rfl, id, id⟩

end Sys2Proof.Machine
end

