-- ==== Sys2Proof/WellFormed.lean ====
section
/-! DEFINITION. The checks on a command's operands that its types do not make: values that the spec reserves or that
name nothing. The meanings do not rely on them. -/

namespace Sys2Proof

/-- 02 Table 2.4: a response code that is not reserved. -/
def BootStray.wf : BootStray → Bool
  | .response _ _ r => decide (r.toNat ≤ 4)
  | .parity _ _ => true
  | .credit _ => true

/-- 12 R307: an area of 256 KiB; 02 Table 2.4: a response that is not OK and not reserved; 02 Table 2.2: 256 bits of data and 19 check
bits. -/
def CopyImage.wf (i : CopyImage) : Bool :=
  decide (i.bytes.length ≤ 262144) &&
  i.bad.all (fun e => decide (e.1 < 262144) && decide (1 ≤ e.2.1.toNat) && decide (e.2.1.toNat ≤ 4)) &&
  i.ue.all (fun o => decide (o < 262144)) && i.ce.all (fun e => decide (e.1 < 262144) && decide (e.2.toNat < 275)) &&
  i.stray.all BootStray.wf

/-- An answer holds a well-formed image. -/
def BootRead.wf : BootRead → Bool
  | .noAnswer _ i => i.wf
  | .image i => i.wf

/-- 02 Table 2.2: the request sizes. -/
def GateIn.wf (i : GateIn) : Bool :=
  match i.req with
  | some r => decide (r.size.toNat ≤ 3) || decide (r.size.toNat = 5)
  | none => true

/-- The commands whose operands the spec allows. -/
def Instr.wf : Instr → Bool
  /- 10 R275: the rule words are the words 0 to 0x2C0 / 4, the rest of the last quad being reserved. -/
  | .gateRuleWrite _ w _ => decide (w.toNat ≤ 176)
  /- 10 Table 10.4: the tile-resident registers lie from offset 0x300 on. -/
  | .tileRegisterRead _ w => decide (0xC0 ≤ w.toNat)
  | .boot a b la lb _ _ => a.wf && b.wf && la.wf && lb.wf
  | .loadOptionArea _ _ _ _ _ (.err r _ _) => decide (1 ≤ r.toNat) && decide (r.toNat ≤ 4)
  | .loadOptionArea _ _ _ _ _ (.strays _ l) => l.all BootStray.wf
  | .verify _ _ _ ans _ => ans.wf
  | .verifyRead _ _ _ _ _ ans => ans.wf
  | .restructure _ _ _ ans ld _ _ => ans.wf && ld.wf
  /- 02 Table 2.4: the response codes 0b101 to 0b111 are reserved. -/
  | .readResponseBeat _ b => decide (b.resp.toNat ≤ 4)
  | .writeResponse _ r => decide (r.resp.toNat ≤ 4)
  | .gateCheck _ i => i.wf
  | .gateApply a => a.in1.wf && a.in2.wf && a.in3.wf
  /- 10 R273: a failing beat is one that the engine sent, or arrived with a parity error. -/
  | .gateRing which _ k => which == .parity || k == .census || k == .write || k == .read || k == .stage || k == .apply
  /- 13 Table 13.2: the opcodes that name no command. -/
  | .cmdReservedOpcode _ op => decide (op.toNat = 0) || decide (0x11 ≤ op.toNat)
  | _ => true

end Sys2Proof
end

