-- ==== Sys2Proof/Tests/Slice0.lean ====
section
/-! SUPPORT. Small tests, each about one step on a small state: ill-formed operands, words written out from the encoding
tables, the results that the spec's rules give, and for every obligation with hypotheses a state and operands that meet
them. -/

namespace Sys2Proof.Tests

open Sys2Proof.Machine Sys2Proof.Safety

-- One evaluation after the other: side by side they take a thread, and its stack, each.
set_option Elab.async false

/-! ### Ill-formed operands -/

def noCopy : CopyImage := { bytes := [], bad := [], ue := [] }
def badCopy : CopyImage := { bytes := [], bad := [(0, 0, 0)], ue := [] }
def farCopy : CopyImage := { bytes := [], bad := [], ue := [262144] }
def request : GateReq :=
  { write := false, addr := 0x1000, size := 5, len := 1, tag := 3, priv := true, mid := 2, dom := 1, cls := 0, par := 0 }

theorem test_wf_rule_word : (Instr.gateRuleWrite 0 177 0).wf = false := by decide
theorem test_wf_tile_word : (Instr.tileRegisterRead 0 0xBF).wf = false := by decide
theorem test_wf_boot_code : (Instr.boot badCopy noCopy noCopy noCopy 0 none).wf = false := by decide
theorem test_wf_boot_offset : (Instr.boot noCopy farCopy noCopy noCopy 0 none).wf = false := by decide
theorem test_wf_load_answer : (Instr.loadOptionArea 0 false 0 32 0 (.err 0 0 0)).wf = false := by decide
theorem test_wf_verify : (Instr.verify 0 false 0 (.image badCopy) none).wf = false := by decide
theorem test_wf_verify_read : (Instr.verifyRead 0 false 0 32 0 (.image badCopy)).wf = false := by decide
theorem test_wf_restructure : (Instr.restructure 0 false 0 (.noAnswer 0 noCopy) (.image farCopy) 0 none).wf = false := by decide
theorem test_wf_read_code :
    (Instr.readResponseBeat 0 { tag := 0, data := 0, chk := 0, last := true, resp := 5, detail := 0, par := 0 }).wf = false := by
  decide
theorem test_wf_write_code :
    (Instr.writeResponse 0 { tag := 0, resp := 7, detail := 0, beat := 0, par := 0 }).wf = false := by decide
theorem test_wf_request_size : (Instr.gateCheck 0 { quietIn with req := some { request with size := 4 } }).wf = false := by decide
theorem test_wf_ring_kind : (Instr.gateRing .timeout 0 .report).wf = false := by decide
theorem test_wf_opcode : (Instr.cmdReservedOpcode 0 0x10).wf = false := by decide
theorem test_wf_good :
    (Instr.gateRuleWrite 0 176 0).wf = true ∧ (Instr.tileRegisterRead 0 0xC0).wf = true ∧
    (Instr.gateRing .parity 0 .report).wf = true ∧ (Instr.cmdReservedOpcode 0 0x11).wf = true ∧
    (Instr.gateCheck 0 { quietIn with req := some request }).wf = true ∧ (Instr.boot noCopy noCopy noCopy noCopy 0 none).wf = true := by decide

/-! ### Words of the encoding tables (05 Tables 5.1 to 5.12) -/

theorem test_decode_move :
    decodeYabex (0b0001_01_10_101_1_0_000_0_000000000000000000000000000_00000000000000000111 : BitVec 64) =
      .ok (.move 1 2 5 true false 0 false 7) := by decide
theorem test_decode_puti :
    decodeYabex (0b0010_11_0_1_000000000000000000000000_00000000000000000000000000000101 : BitVec 64) =
      .ok (.puti 3 false true 5) := by decide
theorem test_decode_loop :
    decodeYabex (0b0110_01_00000000000000000000000000_11111111111111111111111111111111 : BitVec 64) = .ok (.loop 1 (-1)) := by
  decide
theorem test_decode_link :
    decodeYabex (0b1000_00000000000_1_000000000000000000000000000000000000000000001000 : BitVec 64) = .ok (.link true 8) := by
  decide
theorem test_decode_wait :
    decodeYabex (0b1001_01_1_0_0_0000000_000000000000000000000010_000000000000_000000000111 : BitVec 64) =
      .ok (.wait 1 true false false 2 0 7) := by decide
theorem test_decode_watch :
    decodeYabex (0b1101_00000000000000000000000000000000_0000000000000001_000000000010 : BitVec 64) = .ok (.watch 1 2) := by
  decide
theorem test_decode_reserved_bit : decodeYabex (0x5000000100000000 : BitVec 64) = .illegal 2 := by decide
theorem test_decode_swap_too_wide :
    decodeYabex (0b0001_01_10_000_1_1_001_0_000000000000000000000000000_00000000000000000000 : BitVec 64) = .illegal 3 := by decide

/-! ### States -/

def wins : List Window :=
  [{ base := 0x1000, limit := 0x1FFF, port := 0, dom := 1 }, { base := 0x60000000, limit := 0x6000FFFF, port := 1, dom := 2 }]
def openPort : Port := { used := true, en := true, rqCred := 8, wdCred := 16, thrBulk := 1 }
/-- RUN in ccyc 100 at ridge time 1000, with two windows and two ports and no command in progress. -/
def idle : State :=
  { pwr := { st := .run }, cmd := { busy := false, job := .none }, clk := { now := 100, ridge := 1000 }, wins := wins,
    ports := [(0, openPort), (1, openPort)] }
def regsA : Regs4 48 := { r0 := 0x1000, r1 := 0x60000000, r2 := 1000, r3 := 990 }
def regsL : Regs4 32 := { r0 := 3, r1 := 1 }
/-- Channel 0 RUNNING on mover 0. -/
def busy : Channel := { en := true, st := .running, assigned := true, a := regsA, l := regsL, watchCnt := 2 }
def withChan (c : Channel) (s : State) : State := { s with chans := [(0, c)] }
def bound (c : Channel) (s : State) : State := { withChan c s with movers := [(0, { ch := some 0 })] }
/-- The word `w` at address `pc` of the store, where channel 0 is to execute it. -/
def atWordOf (w : IWord) (pc : Nat) : State :=
  bound { busy with pc := { addr := BitVec.ofNat 48 pc } } { idle with prog := writeBytes [] pc 8 w.toNat }
def at' (i : Yabex) (pc : Nat) : State := atWordOf (encodeYabex i) pc
def runs (i : Yabex) : State := at' i 0

/-- The state after a command, if it goes on, meets a condition. -/
def after (o : Host.Outcome State Fault Refusal) (p : State → Bool) : Bool :=
  match o with
  | .next t => p t
  | _ => false

/-- Channel 0 has halted with this cause and detail. -/
def halted (c : Cause) (d : BitVec 4) (t : State) : Bool :=
  (chan t 0).st == .halted && (chan t 0).faultInfo.valid && (chan t 0).faultInfo.cause == c && (chan t 0).faultInfo.detail == d

/-! ### Yabex instructions -/

theorem test_seta_in_reach : atInstr (runs (.seta 1 5)) 0 (.seta 1 5) = true ∧ goesOn (runs (.seta 1 5)) 0 8 = true := by decide
theorem test_seta : after (exec (.seta 0) (runs (.seta 1 5))) (fun t =>
    (chan t 0).a == { regsA with r1 := 5 } && (chan t 0).pc.addr == 8 && (chan t 0).l == regsL) = true := by decide
theorem test_adda_wraps : atInstr (runs (.adda 0 0xFFFFFFFFF001)) 0 (.adda 0 0xFFFFFFFFF001) = true ∧
    after (exec (.adda 0) (runs (.adda 0 0xFFFFFFFFF001))) (fun t => (chan t 0).a == { regsA with r0 := 1 }) = true := by decide
theorem test_setl : atInstr (runs (.setl 3 9)) 0 (.setl 3 9) = true ∧
    after (exec (.setl 0) (runs (.setl 3 9))) (fun t => (chan t 0).l == { regsL with r3 := 9 }) = true := by decide
theorem test_past_the_end : atInstr (at' (.setl 0 1) 0x3FFF8) 0 (.setl 0 1) = true ∧
    unstopped (at' (.setl 0 1) 0x3FFF8) 0 = true ∧ goesOn (at' (.setl 0 1) 0x3FFF8) 0 8 = false ∧
    after (exec (.setl 0) (at' (.setl 0 1) 0x3FFF8)) (fun t =>
      halted .fetch 2 t && (chan t 0).faultAddr == 0x40000 && (chan t 0).l.r0 == 1) = true := by decide
theorem test_loop_turns : atInstr (at' (.loop 0 (-1)) 8) 0 (.loop 0 (-1)) = true ∧
    targetOk false (branchTarget { addr := 8 } (-1)) = true ∧
    after (exec (.loop 0) (at' (.loop 0 (-1)) 8)) (fun t => (chan t 0).l.r0 == 2 && (chan t 0).pc.addr == 0) = true := by decide
theorem test_loop_ends : after (exec (.loop 0) (at' (.loop 1 (-1)) 8)) (fun t =>
    (chan t 0).l.r1 == 0 && (chan t 0).pc.addr == 16) = true := by decide
theorem test_jump : atInstr (runs (.jump 0x7FFF)) 0 (.jump 0x7FFF) = true ∧ targetOk false (branchTarget {} 0x7FFF) = true ∧
    after (exec (.jump 0) (runs (.jump 0x7FFF))) (fun t => (chan t 0).pc.addr == 0x3FFF8) = true := by decide
theorem test_jump_outside : atInstr (runs (.jump 0x8000)) 0 (.jump 0x8000) = true ∧ targetOk false (branchTarget {} 0x8000) = false ∧
    after (exec (.jump 0) (runs (.jump 0x8000))) (fun t => halted .illegal 6 t && (chan t 0).faultAddr == 0x40000) = true := by
  decide
theorem test_loop_outside : atInstr (runs (.loop 0 (-1))) 0 (.loop 0 (-1)) = true ∧ targetOk false (branchTarget {} (-1)) = false ∧
    after (exec (.loop 0) (runs (.loop 0 (-1)))) (halted .illegal 6) = true := by decide
/-- A fetch port, so that channel 0 may run from system memory. -/
def withFetch (s : State) : State := { s with ports := [(0, { openPort with fetch := true }), (1, openPort)] }
theorem test_link : atInstr (runs (.link false 0x3FFF8)) 0 (.link false 0x3FFF8) = true ∧
    after (exec (.link 0) (runs (.link false 0x3FFF8))) (fun t => (chan t 0).pc.addr == 0x3FFF8) = true ∧
    atInstr (withFetch (runs (.link true 0x1000))) 0 (.link true 0x1000) = true ∧
    sysAllowed (withFetch (runs (.link true 0x1000))) busy = true := by decide
theorem test_link_refused : atInstr (runs (.link false 0x40000)) 0 (.link false 0x40000) = true ∧
    after (exec (.link 0) (runs (.link false 0x40000))) (halted .illegal 6) = true ∧
    atInstr (runs (.link true 0x1000)) 0 (.link true 0x1000) = true ∧ sysAllowed (runs (.link true 0x1000)) busy = false ∧
    after (exec (.link 0) (runs (.link true 0x1000))) (halted .illegal 7) = true := by decide

/-- Line 5 is owned by channel 0 and its counter holds `n`. -/
def withLine (n : BitVec 4) (s : State) : State :=
  { s with routes := { req := [(5, 0x80000000)] }, lines := [(5, { cnt := n })] }
theorem test_wait_line : atInstr (withLine 1 (runs (.wait 0 false false false 0 0 5))) 0 (.wait 0 false false false 0 0 5) = true ∧
    lineOwner (withLine 1 (runs (.wait 0 false false false 0 0 5))) 5 = some 0 ∧
    after (exec (.wait 0) (withLine 1 (runs (.wait 0 false false false 0 0 5)))) (fun t =>
      (line t 5).cnt == 0 && (chan t 0).pc.addr == 8) = true := by decide
theorem test_wait_line_waits :
    atInstr (withLine 0 (runs (.wait 0 true false false 600 0 5))) 0 (.wait 0 true false false 600 0 5) = true ∧
    after (exec (.wait 0) (withLine 0 (runs (.wait 0 true false false 600 0 5)))) (fun t =>
      (chan t 0).st == .waiting && (chan t 0).waitOn == .line && (chan t 0).dl == 1600 && (chan t 0).dlArmed) = true := by decide
theorem test_wait_event : atInstr (runs (.wait 1 false false false 0 0 7)) 0 (.wait 1 false false false 0 0 7) = true ∧
    after (exec (.wait 0) { runs (.wait 1 false false false 0 0 7) with ev := { delivered := [7] } })
      (fun t => (chan t 0).pc.addr == 8) = true ∧
    after (exec (.wait 0) (runs (.wait 1 false false false 0 0 7))) (fun t => (chan t 0).waitOn == .event) = true := by decide
theorem test_wait_instant : atInstr (runs (.wait 2 false false true 0 0 2)) 0 (.wait 2 false false true 0 0 2) = true ∧
    instantOffset 1000 1000 = 0 ∧ instantOffset 1000 990 = -10 ∧ instantOffset 1000 0x1000 = 3096 ∧
    after (exec (.wait 0) (runs (.wait 2 false false true 0 0 2))) (fun t => (chan t 0).pc.addr == 8) = true ∧
    after (exec (.wait 0) (runs (.wait 2 false false true 0 0 0))) (fun t => (chan t 0).dl == 4096) = true := by decide
theorem test_wait_global : atInstr (runs (.wait 3 false false false 0 0 63)) 0 (.wait 3 false false false 0 0 63) = true ∧
    after (exec (.wait 0) { runs (.wait 3 false false false 0 0 63) with ev := { gdelivered := 0x8000000000000000 } })
      (fun t => (chan t 0).pc.addr == 8) = true ∧
    after (exec (.wait 0) (runs (.wait 3 false false false 0 0 63))) (fun t => (chan t 0).waitOn == .gevent) = true := by decide
theorem test_wait_halts : atInstr (runs (.wait 0 false false false 0 0 5)) 0 (.wait 0 false false false 0 0 5) = true ∧
    lineOwner (runs (.wait 0 false false false 0 0 5)) 5 = none ∧
    after (exec (.wait 0) (runs (.wait 0 false false false 0 0 5))) (halted .illegal 8) = true ∧
    atInstr (runs (.wait 2 false false true 0 0 3)) 0 (.wait 2 false false true 0 0 3) = true ∧
    after (exec (.wait 0) (runs (.wait 2 false false true 0 0 3))) (halted .deadline 1) = true := by decide

/-- Write tag 4 of port 0 is outstanding for channel 0. -/
def owed (s : State) : State := { s with ports := [(0, { openPort with wtags := [(4, some { sent := 1, lastAt := 90 })] }), (1, openPort)] }
theorem test_signal : atInstr (runs (.signal 9)) 0 (.signal 9) = true ∧
    after (exec (.signal 0) (runs (.signal 9))) (fun t => t.ev.raised == [9] && (chan t 0).pc.addr == 8) = true := by decide
theorem test_signalF : atInstr (runs (.signalF 9)) 0 (.signalF 9) = true ∧ unstopped (runs (.signalF 9)) 0 = true ∧
    wtagCount (runs (.signalF 9)) 0 = 0 ∧ after (exec (.signalF 0) (runs (.signalF 9))) (fun t => t.ev.raised == [9]) = true := by
  decide
theorem test_signalF_waits : atInstr (owed (runs (.signalF 9))) 0 (.signalF 9) = true ∧
    wtagCount (owed (runs (.signalF 9))) 0 = 1 ∧
    after (exec (.signalF 0) (owed (runs (.signalF 9)))) (fun t => t.ev.raised == [] && (chan t 0).waitOn == .fenced) = true := by
  decide
theorem test_fence : atInstr (runs .fence) 0 .fence = true ∧
    after (exec (.fence 0) (runs .fence)) (fun t => (chan t 0).pc.addr == 8) = true := by decide
theorem test_fence_waits : atInstr (owed (runs .fence)) 0 .fence = true ∧ unstopped (owed (runs .fence)) 0 = true ∧
    after (exec (.fence 0) (owed (runs .fence))) (fun t => (chan t 0).waitOn == .fenced && (chan t 0).pc.addr == 0) = true := by
  decide
theorem test_watch : atInstr (runs (.watch 2 9)) 0 (.watch 2 9) = true ∧
    after (exec (.watch 0) (runs (.watch 2 9))) (fun t => t.ev.raised == [9] && (chan t 0).watchCnt == 0) = true ∧
    atInstr (runs (.watch 3 9)) 0 (.watch 3 9) = true ∧
    after (exec (.watch 0) (runs (.watch 3 9))) (fun t => t.ev.raised == [] && (chan t 0).watchCnt == 2) = true := by decide
theorem test_stop : atInstr (runs .stop) 0 .stop = true ∧ (chan (runs .stop) 0).enAt ≠ some 100 ∧
    after (exec (.stop 0) (runs .stop)) (fun t => (chan t 0).st == .idle && !(chan t 0).en && (chan t 0).a == regsA) = true := by
  decide
theorem test_undecodable : atWord (atWordOf 0x5000000100000000 0) 0 0x5000000100000000 = true ∧
    after (exec (rowOf 5 0) (atWordOf 0x5000000100000000 0)) (halted .illegal 2) = true ∧
    atWord (atWordOf 0x1400000100000000 0) 0 0x1400000100000000 = true ∧ mayMove (atWordOf 0x1400000100000000 0) 0 = true ∧
    after (exec (rowOf 1 0) (atWordOf 0x1400000100000000 0)) (halted .illegal 2) = true := by decide
theorem test_reserved_opcode : atWord (atWordOf 0 0) 0 0 = true ∧
    after (exec (.reservedOpcodeInstruction 0) (atWordOf 0 0)) (halted .illegal 1) = true ∧
    atWord (atWordOf 0xF000000000000000 0) 0 0xF000000000000000 = true ∧
    after (exec (.reservedOpcodeInstruction 0) (atWordOf 0xF000000000000000 0)) (halted .illegal 1) = true := by decide

/-! ### MOVE, PUTI and the data path -/

def mv : Yabex := .move 0 1 2 true true 0 false 7
def pu : Yabex := .puti 1 false true 0xC80
/-- The geometry of `mv`: eight 4-byte elements from 0x1000 (port 0) to 0x60000000 (port 1). -/
def geo : Geometry :=
  { s := 0x1000, d := 0x60000000, e := 4, n := 8, sinc := true, dinc := true, sport := 0, dport := 1, sreg := 0, dreg := 1 }
def moving (r : Run) (s : State) : State := bound { busy with inMove := true, run := some r } s
def begun : State := moving { geo := geo } (runs mv)
theorem test_same_register : atWord (atWordOf 0x1558000000000007 0) 0 0x1558000000000007 = true ∧
    mayMove (atWordOf 0x1558000000000007 0) 0 = true ∧ yabexOpcode 0x1558000000000007 = 1 ∧
    (fld (0x1558000000000007 : BitVec 64) 58 2 : BitVec 2) = fld (0x1558000000000007 : BitVec 64) 56 2 ∧
    esizeOk (fld (0x1558000000000007 : BitVec 64) 53 3) = true ∧
    (fld (0x1558000000000007 : BitVec 64) 20 27 : BitVec 27) = 0 ∧
    swapUnit (fld (0x1558000000000007 : BitVec 64) 48 3) ≤ esizeBytes (fld (0x1558000000000007 : BitVec 64) 53 3) ∧
    after (exec (.move 0) (atWordOf 0x1558000000000007 0)) (halted .illegal 4) = true := by decide
theorem test_move_begins : mayMove (runs mv) 0 = true ∧ atInstr (runs mv) 0 mv = true ∧ (chan (runs mv) 0).inMove = false ∧
    after (exec (.move 0) (runs mv)) (fun t => (chan t 0).inMove && ((chan t 0).run.map (·.geo) == some geo)) = true := by decide
theorem test_move_checked : checkMove (runs mv) regsA 0 1 2 true true 0 false 7 = .ok geo := by rfl
theorem test_puti_begins : mayMove (runs pu) 0 = true ∧ atInstr (runs pu) 0 pu = true ∧
    after (exec (.puti 0) (runs pu)) (fun t => (chan t 0).inMove && ((chan t 0).run.map (·.geo.imm) == some (some 0xC80))) = true := by
  decide
theorem test_puti_checked : ∃ g, checkPuti (runs pu) regsA 1 false true 0xC80 = .ok g := ⟨_, rfl⟩
def pu8 : State := { runs (.puti 1 true false 0) with prog := writeBytes (writeBytes [] 0 8 0x2600000000000000) 8 8 0x1122334455667788 }
theorem test_puti_data : mayMove pu8 0 = true ∧ atInstr pu8 0 (.puti 1 true false 0) = true ∧
    after (exec (.puti 0) pu8) (fun t => (chan t 0).run.map (·.geo.imm) == some (some 0x1122334455667788)) = true := by decide
theorem test_puti_data_word : putiData pu8 (chan pu8 0) = .ok 0x1122334455667788 ∧
    ∃ g, checkPuti pu8 regsA 1 true false 0 = .ok g := ⟨rfl, _, rfl⟩
theorem test_windows : windowAt idle 0x1000 = some wins[0] ∧ windowAt idle 0x6000FFFF = some wins[1] ∧ windowAt idle 0x2000 = none ∧
    checkMove idle { regsA with r0 := 0x2000 } 0 1 2 true true 0 false 7 = .error (illegal 5 0x2000) ∧
    checkMove idle { regsA with r0 := 0x1FE1 } 0 1 2 true true 0 false 6 =
      .error { cause := .align, addr := 0x1FE1, dir := dirRead, port := 0 } ∧
    checkMove idle { regsA with r0 := 0x1FE0 } 0 1 2 true true 0 false 8 = .error (illegal 5 0x1FE0) ∧
    ∃ g, checkMove idle { regsA with r0 := 0x1FE0 } 0 1 2 true true 0 false 7 = .ok g :=
  ⟨by decide, by decide, by decide, rfl, rfl, rfl, _, rfl⟩

def allMoved : State := moving { geo := geo, resv := 1, rd := 8, wr := 1 } (runs mv)
theorem test_move_retires : canRetire allMoved 0 = true ∧
    after (exec (.moveRetire 0) allMoved) (fun t => (chan t 0).a == { regsA with r0 := 0x1020, r1 := 0x60000020 } &&
      (chan t 0).pc.addr == 8 && !(chan t 0).inMove && t.movers == []) = true := by decide
def putiDone : State := moving { geo := { d := 0x60000000, e := 4, n := 1, dinc := true, dport := 1, dreg := 1, imm := some 1 },
                                 resv := 1, wr := 1 } (runs pu)
theorem test_puti_retires : canRetire putiDone 0 = true ∧
    after (exec (.moveRetire 0) putiDone) (fun t => (chan t 0).a == { regsA with r1 := 0x60000004 }) = true := by decide

theorem test_slot_reserve : workOf begun 0 = some (0, { geo := geo }) ∧ 0 < units geo ∧
    tagPermitted (chan begun 0) 3 (writeTagFree begun 1) = true ∧
    after (exec (.slotReserve 0 3) begun) (fun t =>
      (chan t 0).run == some { geo := geo, resv := 1, slots := [{ tag := 3, unit := 0, len := 1, since := 100 }] }) = true := by decide
def sendAgain : Run := { geo := geo, resv := 1, rd := 8, resend := [(0, 1, 100)] }
theorem test_slot_resend : workOf (moving sendAgain idle) 0 = some (0, sendAgain) ∧
    tagPermitted (chan (moving sendAgain idle) 0) 3 (writeTagFree (moving sendAgain idle) 1) = true ∧
    after (exec (.slotReserve 0 3) (moving sendAgain idle)) (fun t => (chan t 0).run == some { sendAgain with
      resend := [], slots := [{ tag := 3, unit := 0, len := 1, whole := true, since := 100, first := 100 }] }) = true := by decide
def reserved : Run := { geo := geo, resv := 1, slots := [{ tag := 3, unit := 0, len := 1 }] }
theorem test_read_issue : workOf (moving reserved idle) 0 = some (0, reserved) ∧ (∀ t, canReserve (moving reserved idle) 0 reserved t = false) ∧
    geo.sport ≠ geo.dport ∧
    readCursor (moving reserved idle) 0 reserved < elemsUpTo geo 1 ∧ hasRequest (moving reserved idle) 0 (.mover 0) = false ∧
    tagPermitted (chan (moving reserved idle) 0) 5 (readTagFree (moving reserved idle) 0) = true ∧
    closedTo (moving reserved idle) (chan (moving reserved idle) 0) (nextRead geo 0 8).1 = false ∧
    after (exec (.readIssue (.mover 0) 5) (moving reserved idle)) (fun t => (port t 0).reqs.map (fun q => (q.addr, q.len, q.hi)) ==
      [(0x1000, 1, 8)]) = true := by
  refine ⟨by decide, fun t => ?_, by decide, by decide, by decide, by decide, by decide, by decide⟩
  unfold canReserve
  rw [show (!reserved.resend.isEmpty || decide (reserved.resv < units reserved.geo)) = false from by decide]
  rfl
def fetching : State :=
  withChan { busy with st := .waiting, waitOn := .fetch, pc := { sys := true, addr := 0x1048 } } (withFetch idle)
theorem test_fetch_issue : fetchGroup fetching (chan fetching 0) = some 0x1040 ∧ fetchPort fetching = some 0 ∧
    (chan fetching 0).fetched = false ∧ hasRequest fetching 0 (.fetch 0) = false ∧
    tagPermitted (chan fetching 0) 5 (readTagFree fetching 0) = true ∧ closedTo fetching (chan fetching 0) 0x1040 = false ∧
    after (exec (.readIssue (.fetch 0) 5) fetching) (fun t => (chan t 0).fetched &&
      (port t 0).reqs.map (fun q => (q.addr, q.size)) == [(0x1040, 5)]) = true := by
  decide
def staged : Run := { reserved with rd := 8, staged :=
  [{ beat := 128, lo := 0, hi := 8, s := 0x1000, data := 7, chk := encodeChk 7, time := 95, late := false, ready := 95, bad := false, tag := 5 }] }
theorem test_write_launch : workOf (moving staged idle) 0 = some (0, staged) ∧
    launchable (moving staged idle) staged { tag := 3, unit := 0, len := 1 } = some false ∧
    rebuildBad staged { tag := 3, unit := 0, len := 1 } false = none ∧ hasRequest (moving staged idle) 1 (.mover 0) = false ∧
    closedTo (moving staged idle) (chan (moving staged idle) 0) 0x60000000 = false ∧
    after (exec (.writeLaunch 0 3) (moving staged idle)) (fun t => (port t 1).reqs.map (fun q => (q.addr, q.write, q.tag)) ==
      [(0x60000000, true, 3)]) = true := by decide +kernel
def shut : State := { idle with pd := { closed := 2 } }
/-- A row, and then HALT_ENTRY of channel 0 in the same ccyc. -/
def thenHalt (i : Instr) (s : State) : Host.Outcome State Fault Refusal :=
  match exec i s with
  | .next t => exec (.haltEntry 0 .held) t
  | o => o
theorem test_quiesce_halt : closedTo (moving reserved shut) (chan (moving reserved shut) 0) 0x1000 = true ∧
    owesBeats (moving reserved shut) 0 = false ∧ failingTag (moving reserved shut) 0 = false ∧
    (chan (moving reserved shut) 0).held = none ∧
    after (thenHalt (.readIssue (.mover 0) 5) (moving reserved shut)) (fun t =>
      halted .quiesce 0 t && (chan t 0).faultAddr == 0x1000) = true := by decide
theorem test_quiesce_cannot_reserve : ∀ t, canReserve (moving reserved shut) 0 reserved t = false := by
  intro t
  unfold canReserve
  rw [show (!reserved.resend.isEmpty || decide (reserved.resv < units reserved.geo)) = false from by decide]
  rfl
def dim : State :=
  { idle with mon := { vmon := true, nvStop := true }, nvwins := [{ base := 0x60000000, limit := 0x600000FF, port := 0, dom := 0 }] }
theorem test_brownout_halt : inNV (moving staged dim) 0x60000000 = true ∧ (moving staged dim).mon.nvStop = true ∧
    launchable (moving staged dim) staged { tag := 3, unit := 0, len := 1 } = some false ∧
    after (thenHalt (.writeLaunch 0 3) (moving staged dim)) (fun t => halted .brownout 0 t && (sealCcyc t).mon.halts == 1) = true := by
  decide +kernel

/-! ### Responses, credits -/

def rdBeat (tag : Tag) (resp : BitVec 3) (detail : BitVec 4) : RdBeat :=
  { tag := tag, data := 0, chk := encodeChk 0, last := true, resp := resp, detail := detail
    par := BitVec.ofBool (oddParity (BitVec.ofBool true ++ resp ++ detail)) ++ BitVec.ofBool (oddParity tag) }
def wrResp (tag : Tag) (resp : BitVec 3) (detail : BitVec 4) (beat : BitVec 3) : WrResp :=
  { tag := tag, resp := resp, detail := detail, beat := beat
    par := BitVec.ofBool (oddParity (resp ++ detail ++ beat)) ++ BitVec.ofBool (oddParity tag) }
def readOut : RTag := { ch := 0, addr := 0x1000, len := 1, lo := 0, hi := 8, s := 0x1000 }
def reading : State := { moving { reserved with rd := 8 } idle with ports := [(0, { openPort with rtags := [(5, some readOut)] }), (1, openPort)] }
theorem test_read_beat : rdParityOk (rdBeat 5 0 0) = true ∧ get none (port reading 0).rtags 5 = some readOut ∧
    decodeBeat 0 (encodeChk 0) = .clean ∧
    after (exec (.readResponseBeat 0 (rdBeat 5 0 0)) reading) (fun t => (chan t 0).run.map (·.staged.length) == some 1 &&
      (port t 0).rtags == []) = true := by decide +kernel
theorem test_read_error : rdParityOk (rdBeat 5 1 3) = true ∧ beatNeeded (chan reading 0) readOut 128 = true ∧
    after (exec (.readResponseBeat 0 (rdBeat 5 1 3)) reading) (fun t => (chan t 0).haltPend &&
      (chan t 0).held.map (fun h => (h.cause, h.detail, h.addr)) == some (.bus, 3, 0x1000)) = true := by decide
def writeOut : WTag := { ch := 0, addr := 0x60000000, len := 1, sent := 1, lastAt := 99, geo := geo }
def writing : State := { moving { geo := geo, resv := 1, rd := 8, wr := 1 } idle with
  ports := [(0, openPort), (1, { openPort with wtags := [(3, some writeOut)] })] }
theorem test_write_ok : wrParityOk (wrResp 3 0 0 0) = true ∧ get none (port writing 1).wtags 3 = some writeOut ∧
    after (exec (.writeResponse 1 (wrResp 3 0 0 0)) writing) (fun t => (port t 1).wtags == [] && t.chans == writing.chans) = true := by
  decide
/-- The first of two units of a MOVE has left. -/
def halfWay : Run := { geo := { geo with n := 16 }, resv := 2, rd := 16, wr := 1, slots := [{ tag := 4, unit := 1, len := 1 }] }
def writingOn : State := { moving halfWay idle with
  ports := [(0, openPort), (1, { openPort with wtags := [(3, some { writeOut with geo := halfWay.geo })] })] }
theorem test_write_error : wrParityOk (wrResp 3 2 1 0) = true ∧ allDone halfWay = false ∧ (chan writingOn 0).held = none ∧
    writeOut.lastAt < writingOn.clk.now ∧
    after (exec (.writeResponse 1 (wrResp 3 2 1 0)) writingOn) (fun t => (chan t 0).haltPend && (chan t 0).moveWr == 0 &&
      (chan t 0).held.map (fun h => (h.cause, h.detail, h.addr)) == some (.gate, 1, 0x60000000)) = true := by decide
theorem test_unknown_tags : get none (port idle 0).rtags 5 = none ∧ get none (port idle 0).wtags 3 = none ∧
    after (exec (.readResponseBeat 0 (rdBeat 5 0 0)) idle) (fun t => bit t.irq.cause 2 && t.flog.entries.length == 1) = true ∧
    after (exec (.writeResponse 0 (wrResp 3 0 0 0)) idle) (fun t => bit t.irq.cause 2 && t.flog.entries.length == 1) = true := by
  decide
def creditsOf (rq wd : Nat) : State := { idle with ports := [(0, { openPort with rqCred := rq, wdCred := wd })] }
theorem test_credits : nextWd (port (creditsOf 31 63) 0) < 64 ∧ nextRq (port (creditsOf 31 63) 0) < 32 ∧
    after (exec (.creditReturn 0 false) (creditsOf 31 64)) (fun t => (newCredits (port t 0)).rqCred == 32) = true ∧
    after (exec (.creditReturn 0 true) (creditsOf 31 63)) (fun t => (newCredits (port t 0)).wdCred == 64) = true ∧
    after (exec (.creditReturn 0 false) (creditsOf 32 64)) (fun t => (port t 0).rqRet == 0 && bit t.irq.cause 1) = true ∧
    after (exec (.creditReturn 0 true) (creditsOf 32 64)) (fun t => (port t 0).wdRet == 0 && bit t.irq.cause 1) = true := by
  decide

/-! ### Lines and events -/

/-- Line 5 is active and owned by channel 0. -/
def pinHigh : State := { withLine 14 idle with lines := [(5, { pin := true, cnt := 14 })] }
/-- The same line as an asynchronous one, whose synchronizer holds these stages. -/
def asyncHigh (s1 s2 : Bool) : State :=
  { idle with routes := { req := [(5, 0x88000000)] }, lines := [(5, { pin := true, s1 := s1, s2 := s2 })] }
theorem test_edge_seen : lineOwner pinHigh 5 = some 0 ∧ lineOwner idle 5 = none ∧
    lineLoads pinHigh (get 0 pinHigh.routes.req 5) (line pinHigh 5) = false ∧
    after (exec (.reqEdge 5 true) (withLine 14 idle)) (fun t => line t 5 == { pin := true, cnt := 14 }) = true ∧
    edgeSeen pinHigh 5 = true ∧ edgeSeen { pinHigh with lines := [(5, { pin := true, det := true })] } 5 = false ∧
    lineAsync 0x88000000 = true ∧ edgeSeen (asyncHigh true false) 5 = false ∧ edgeSeen (asyncHigh true true) 5 = true := by decide
theorem test_edge_counts : (chan pinHigh 0).st ≠ .waiting ∧
    line (handleEdge pinHigh 5) 5 = { pin := true, cnt := 15, use := .counted } := by decide
theorem test_edge_overflows : line (handleEdge (withLine 15 idle) 5) 5 = { cnt := 15, use := .over } ∧
    (line (endOver 5 (handleEdge (withLine 15 idle) 5)) 5).ovf = true ∧
    takePulse { cnt := 15, use := .over } = { cnt := 15, use := .counted } := by decide
def lineWaiter : State := withChan { busy with st := .waiting, waitOn := .line, waitArg := 5 } (withLine 0 idle)
theorem test_edge_wakes : line (handleEdge lineWaiter 5) 5 = { use := .wake } ∧
    (chan (endWake 5 (handleEdge lineWaiter 5)) 0).st = .ready ∧ (chan (endWake 5 (handleEdge lineWaiter 5)) 0).pc.addr = 8 := by
  decide
theorem test_evt_sw : after (exec (.evtSw 9) idle) (fun t => t.ev.raised == [9]) = true ∧
    after (exec (.evtSw 9) (runs (.signal 9))) (fun t => atInstr t 0 (.signal 9) &&
      after (exec (.signal 0) t) (fun u => u.ev.raised == [9])) = true := by decide
def evtWaiter : State := { withChan { busy with st := .waiting, waitOn := .event, waitArg := 7 } idle with ev := { delivered := [7] } }
theorem test_event_delivered : Inv evtWaiter ∧ coreOn evtWaiter = true ∧ (chan evtWaiter 0).dlArmed = false ∧
    (chan (endCcyc evtWaiter) 0).st = .ready := by
  refine ⟨⟨?_, ?_, ?_, ?_⟩, ?_, ?_, ?_⟩ <;> decide
theorem test_event_next_ccyc : idle.cfg.offered = [] ∧ (tick { idle with ev := { raised := [7] } }).ev.delivered = [7] := by decide +kernel
def queued : State := { idle with ev := { lines := [(3, { last := some 98, queue := [7] })] } }
theorem test_pulse_out : (get {} queued.ev.lines 3).queue = [7] ∧
    after (exec (.evtPulseOut 3) queued) (fun t => get {} t.ev.lines 3 == { last := some 100, queue := [] }) = true := by decide

/-! ### The configuration port and the fault log -/

theorem test_identity : (State.reset.pwr.st ≠ .off) ∧
    after (exec (.captureRead 0 ⟨0, (accessParity false 0 0)⟩) State.reset) (fun t => t.cfg.ans.map (·.data) == some 0x5C400102) = true ∧
    after (exec (.captureRead 1 ⟨0, (accessParity false 1 0)⟩) idle) (fun t => t.cfg.ans.map (·.data) == some 0x00000120) = true := by decide
theorem test_bad_parity : accessParity false 0x40 0 ≠ 3 ∧ accessParity true 0x42 0 ≠ 1 ∧
    after (exec (.captureRead 0x40 ⟨0, 3⟩) idle) (fun t => t.cfg.ans.map (fun a => (a.err, a.data)) == some (true, 0)) = true ∧
    after (exec (.registerWrite 0x42 0 1) idle) (fun t => t.cfg.ans.map (·.err) == some true && t.irq.mask == idle.irq.mask) = true := by decide
theorem test_read_top : (0x2FFFF : BitVec 18).toNat < 0x30000 ∧
    after (exec (.captureRead 0x2FFFF ⟨0, (accessParity false 0x2FFFF 0)⟩) idle) (fun t => t.cfg.ans.map (·.data) == some 0) = true := by decide
theorem test_buffer_write :
    after (exec (.registerWrite 0x33FF 0x04030201 (accessParity true 0x33FF 0x04030201)) idle) (fun t =>
      readByte t.cmd.buf 0xFFC == 1 && readByte t.cmd.buf 0xFFF == 4 && t.cmd.buf.length == 4) = true := by decide
theorem test_register_locked : (0x20008 : BitVec 18).toNat = 0x20000 + 32 * 0 + 8 ∧
    after (exec (.registerWrite 0x20008 5 (accessParity true 0x20008 5)) (runs mv)) (fun t => t.chans == (runs mv).chans) = true ∧
    after (exec (.registerWrite 0x20008 5 (accessParity true 0x20008 5)) (withChan { assigned := true, a := regsA } idle)) (fun t =>
      (chan t 0).a.r0 == 5) = true := by decide

def fullLog : State := { idle with flog := { entries := List.replicate 64 {} } }
theorem test_log_full : idle.flog.fresh ≤ idle.flog.entries.length ∧ idle.flog.entries.length < 64 ∧
    fullLog.flog.fresh ≤ fullLog.flog.entries.length ∧ 64 ≤ fullLog.flog.entries.length ∧
    (logFault {} fullLog).flog.lost = 1 := by decide
theorem test_flog_pop : after (exec (.flogPop true) fullLog) (fun t => t.flog.entries.length == 63 && t.flog.head == 1) = true ∧
    after (exec (.flogPop true) idle) (fun t => t.flog.head == 0) = true := by decide

/-! ### Pegs -/

theorem test_peg_commit : commitWrap idle = 128 ∧
    after (exec (.pegCommit 1 false) idle) (fun t => t.pegCommits == [{ wrap := 128, ports := 1, prio := false }]) = true := by
  decide
def wrapping : State := { withChan { prio := 1, prioSh := 6 } idle with
  clk := { now := 128 }, pegSh := [(0, 7)], pegAct := [(0, 1), (64, 2)]
  pegCommits := [{ wrap := 128, ports := 1, prio := true, taken := some ([(0, 0x8002)], [(0, 5)]) }] }
theorem test_peg_wrap : coreCycle wrapping = 128 ∧
    after (exec .pegCommitWrap wrapping) (fun t =>
      t.pegAct == [(0, 0x8002), (64, 2)] && (chan t 0).prio == 5 && t.pegCommits == []) = true := by decide

/-! ### Power, wakes, resets -/

theorem test_target_low : after (exec (.pwrTargetLow .retain) idle) (fun t => t.pwr.st == .entering && t.pwr.target == 2) = true ∧
    after (exec .pwrTargetRun { idle with pwr := { st := .entering, target := 2 } }) (fun t =>
      t.pwr.st == .run && t.pwr.target == 0) = true := by decide
def dozing : State := { idle with pwr := { st := .doze, target := 1, wakeAtEn := true, wakeT := 1000 } }
theorem test_wake_from_doze : after (exec .pwrTargetRun dozing) (fun t => t.pwr.dozeW == some 128) = true ∧
    after (exec .wakeAt dozing) (fun t => t.pwr.st == .waking && !t.pwr.wakeAtEn) = true ∧
    after (exec .wakeAt { dozing with pwr := { dozing.pwr with st := .retain } }) (fun t => t.pwr.pswEn && t.cmd.busy) = true := by
  decide
def entering (n : BitVec 2) : State := { withChan { a := regsA } idle with pwr := { st := .entering, target := n } }
theorem test_entry : quiet (entering 1) = true ∧ quiet (entering 2) = true ∧ quiet (entering 3) = true := by decide
theorem test_enter_doze : after (exec .lowPowerEntry (entering 1)) (fun t => t.pwr.st == .doze && (chan t 0).a == regsA) = true := by
  decide +kernel
theorem test_enter_retain :
    after (exec .lowPowerEntry (entering 2)) (fun t => t.pwr.st == .retain && t.chans == [] && t.ports == []) = true ∧
    after (exec .lowPowerEntry (entering 3)) (fun t => t.pwr.st == .offRdy && t.pwr.offRdy) = true := by decide
def endingDoze : State := { lineWaiter with pwr := { st := .waking, dozeW := some 100 }, lines := [(5, { cnt := 1 })] }
theorem test_doze_exit : endingDoze.pwr.dozeW = some 100 ∧ endingDoze.clk.now = 100 ∧
    after (exec .dozeExit endingDoze) (fun t => t.pwr.st == .run && (chan t 0).st == .ready && (line t 5).cnt == 0) = true := by
  decide +kernel
/-- A wake from RETAIN waits for CORE_PSW_ACK, in ccyc `n`. -/
def wakingAt (n : Nat) : State :=
  { idle with pwr := { st := .waking, pswAck := false }, cmd := { job := .none }, clk := { now := n, ridge := 1000 } }
def waking : State := wakingAt 102
theorem test_wake_ends : waking.cmd.job ≠ .boot ∧ waking.pwr.pswEn = true ∧ waking.clk.now % 2 = 0 ∧
    after (exec (.corePswAck 0 ⟨none, 0, 0⟩) waking) (fun t => t.pwr.st == .run && t.pwr.wake && t.clk.coreBase == 104) = true ∧
    after (exec (.corePswAck 0 ⟨some (.store 8), 0, 0⟩) waking) (fun t => t.pwr.fallback && t.cmd.job == .boot) = true := by
  decide +kernel
theorem test_porst : idle.test.tm = false ∧
    after (exec .porstN fullLog) (fun t => t.clk.ridge == 0 && t.flog == {} && t.pwr.por) = true ∧
    after (exec .sysrstN fullLog) (fun t => t.clk.ridge == 1000 && t.flog == fullLog.flog && t.pwr.sys) = true := by decide
theorem test_supplies : after (exec .supplyRemoval fullLog) (fun t => t.pwr.st == .off && t.clk.ridge == 0 && t.flog == {}) = true := by
  decide
def odd : State := { idle with clk := { now := 101, ridge := 1000 }, irq := { d1 := 5 } }
theorem test_tick_edge : odd.clk.now % 2 = 1 ∧ odd.clk.stepTo = none ∧ odd.clk.adj = 0 ∧ odd.clk.setTime = none ∧
    (tick odd).clk.ridge = 1001 ∧ (tick odd).irq.out = 5 ∧ (tick idle).clk.ridge = 1000 := by decide +kernel

/-! ### Boot, LOAD, VERIFY, RESTRUCTURE -/

/-- A small valid copy: no channel, port 0 with one window, standalone. -/
def sectionsOfCopy : List Byte :=
  [1, 0, 0, 0, 0, 0, 0, 0] ++
  ([2, 0, 1, 0, 8, 0, 0, 0] ++ [4, 8, 0, 0, 0, 0, 0, 0]) ++
  ([3, 0, 8, 0, 128, 0, 0, 0] ++ [1] ++ List.replicate 127 0) ++
  ([4, 0, 1, 0, 16, 0, 0, 0] ++ [0, 0x10, 0, 0, 0, 0, 0x10, 0, 0xFF, 0x1F, 0, 0, 0, 0, 0, 0]) ++
  ([6, 0, 1, 0, 24, 0, 0, 0] ++ [0, 0, 0, 0, 1, 0, 0, 0, 0, 1, 2] ++ List.replicate 13 0)
def headerOfCopy : List Byte :=
  [0x53, 0x43, 0x42, 0x53, 0, 1, 5, 0] ++ [0x18, 1, 0, 0, 9, 0, 0, 0, 7, 0, 0, 0] ++ List.replicate 12 0
def trailerOfCopy : BitVec 256 := 0xe1abee4e61545fed6b54e7a7989870fb1d5d6339eda7c23045ad71c0114f7246
def goodCopy : CopyImage := { bytes := headerOfCopy ++ sectionsOfCopy ++ leBytes trailerOfCopy.toNat 32, bad := [], ue := [] }
theorem test_erased_copy : validate { image := noCopy } none = (4, 0) ∧ validate { image := badCopy } none = (2, 0) ∧
    validate { image := { noCopy with ue := [31] } } none = (3, 31) := by decide
def booting : State := { State.reset with clk := { now := 100, ridge := 1000 } }
theorem test_boot_safe : booting.pwr.st = .waking ∧ booting.cmd.job = .boot ∧ booting.pwr.pswAck = true ∧
    after (exec (.boot noCopy noCopy noCopy noCopy 0 none) booting) (fun t =>
      t.pwr.st == .run && t.bs.safe && t.bs.active == 2 && bit t.irq.cause 48 && t.bs.reasonA == 4) = true := by decide +kernel
theorem test_boot_copy : loadOk goodCopy badCopy = false ∧ loadOk noCopy badCopy = false ∧
    (bootPlan goodCopy noCopy badCopy noCopy (0, 0) (4, 0)).ra = (12, 0) ∧
    (bootPlan noCopy noCopy noCopy noCopy (4, 0) (4, 0)).image = none := by decide
def newerCopy : CopyImage := { goodCopy with bytes := goodCopy.bytes.set 0x10 8 }
def reads (j : Job) : State := { idle with cmd := { token := 1, opcode := 2, job := j } }
theorem test_boot_timeouts :
    after (exec (.bootPortTimeout false 0x40) (reads (.bootRead true false false))) (fun t => t.cmd.code == 12 && !t.cmd.busy) = true ∧
    after (exec (.bootPortTimeout false 0x40) (reads (.bootWrite 0 0 0 none false))) (fun t => t.cmd.code == 12 && !t.cmd.busy) = true ∧
    after (exec (.bootPortTimeout true 0x40) booting) (fun t => t.cmd.tmoB == some 0x40 && t.cmd.tmos.length == 1 &&
      t.boot.rtags == 0) = true := by decide +kernel

def filled : State := { idle with cmd := { idle.cmd with buf := [(0, 0xAA), (7, 0xBB)] }, bs := { active := 0 } }
theorem test_load_store : accepts filled = true ∧
    after (exec (.loadProgramStore 1 false 0x3FFF8 8 0) filled) (fun t =>
      t.prog == [(0x3FFF8, 0xAA), (0x3FFFF, 0xBB)] && t.dig.epoch == 1 && t.cmd.done) = true ∧
    after (exec (.loadProgramStore 1 false 0x3FFF8 16 0) filled) (fun t => t.cmd.code == 2 && t.prog == []) = true ∧
    after (exec (.loadProgramStore 1 true 0 8 0) filled) (fun t => t.dig.epoch == 0 && t.dig.recPend) = true := by decide
theorem test_load_option : areaOk 0x40000 32 = true ∧ activeArea filled 0x40000 = false ∧ activeArea filled 0 = true ∧
    areaOk 0 32 = true ∧ areaOk 8 32 = false ∧ filled.mon.vmon = false ∧ accepts { filled with mon := { vmon := true } } = true ∧
    after (exec (.loadOptionArea 1 false 0x40000 32 0 .ok) filled) (fun t => t.cmd.done) = true ∧
    after (exec (.loadOptionArea 1 false 0 32 0 .ok) filled) (fun t => t.cmd.code == 10) = true ∧
    after (exec (.loadOptionArea 1 false 0x40000 32 0 .ok) { filled with mon := { vmon := true } }) (fun t => t.cmd.code == 9) = true := by
  decide +kernel
theorem test_load_answers : allLost filled.boot.wtags = false ∧
    after (exec (.loadOptionArea 1 false 0x40000 32 0 (.err 2 3 0x40000)) filled) (fun t => t.cmd.code == 11 && t.cmd.res.r3 == 0x32) = true ∧
    after (exec (.loadOptionArea 1 false 0x40000 32 0 (.later 0)) filled) (fun t => t.cmd.busy && (jobsDue t).cmd.done) = true ∧
    after (exec (.loadOptionArea 1 false 0x40000 32 0 .ok) { filled with boot := { wtags := 15 } }) (fun t => t.cmd.code == 12) = true := by
  decide +kernel
theorem test_verify : allLost filled.boot.rtags = false ∧ filled.dig.users = [] ∧
    after (exec (.verify 1 false 0 (.image noCopy) none) filled) (fun t => t.cmd.done && t.cmd.res.r0 == 4) = true := by decide +kernel
theorem test_verify_waits : after (exec (.verify 1 false 0 (.image noCopy) none) { filled with dig := { users := [.roll] } }) (fun t =>
    t.cmd.busy && (verifyGoes { t with dig := {} }).cmd.done) = true := by decide +kernel
theorem test_verify_read : (0x40000 : Nat) / 0x40000 = 1 ∧ noCopy.bad = [] ∧
    after (exec (.verifyRead 1 true 0x40000 32 0 (.image noCopy)) filled) (fun t =>
      t.cmd.done && readByte t.cmd.buf 31 == 0xFF && readByte t.cmd.buf 32 == 0) = true := by decide
theorem test_restructure_refused : accepts filled = true ∧ engineIdle filled = true ∧ filled.bs.safe = false ∧
    after (exec (.restructure 1 true 0 (.image noCopy) (.image noCopy) 0 none) filled) (fun t =>
      t.cmd.code == 13 && t.bs.reasonB == 4) = true ∧
    accepts (runs mv) = true ∧ engineIdle (runs mv) = false ∧ accepts { filled with bs := { safe := true } } = true := by decide
/-! ### Channel commands -/

def inState (st : ChState) (s : State) : State := withChan { busy with st := st } s
theorem test_park :
    after (exec (.park 1 0 0) (inState .ready idle)) (fun t => (chan t 0).st == .parked && t.cmd.busy && (sealCcyc t).cmd.done) = true ∧
    after (exec (.park 1 0 0) (inState .waiting idle)) (fun t => (chan t 0).st == .parked && (sealCcyc t).cmd.done) = true ∧
    after (exec (.park 1 0 0) (inState .parked idle)) (fun t => !(chan t 0).parkSrc && t.cmd.busy && (sealCcyc t).cmd.done) = true ∧
    canRetire begun 0 = false ∧ after (exec (.park 1 0 0) begun) (fun t => (chan t 0).parkPend && t.cmd.busy) = true := by decide
theorem test_park_fails :
    after (exec (.park 1 0 0) (inState .idle idle)) (fun t => t.cmd.code == 5) = true ∧
    after (exec (.park 1 0 0) (withChan { busy with st := .halted, haltAt := 90 } idle)) (fun t => t.cmd.code == 5) = true ∧
    after (exec (.park 1 0 0) (withChan { busy with st := .halted, haltAt := 100 } idle)) (fun t => t.cmd.code == 6) = true ∧
    after (exec (.park 1 0 0) (withChan { busy with haltPend := true, held := some { cause := .bus, addr := 0 } } idle))
      (fun t => t.cmd.code == 6) = true ∧
    after (exec (.park 1 1 0) (inState .ready idle)) (fun t => t.cmd.code == 4) = true := by decide
def stopped : State :=
  withChan { busy with st := .halted, haltAt := 90, faultInfo := { valid := true, cause := .illegal }, last := some ({}, encodeYabex (.setl 3 9)) } idle
def stoppedOwing : State := { stopped with ports := [(0, { openPort with rtags := [(5, some readOut)] })] }
theorem test_resume : instrTags stopped 0 = false ∧ instrTags stoppedOwing 0 = true ∧ accepts stoppedOwing = true ∧
    after (exec (.resume 1 0 0) stopped) (fun t => (chan t 0).st == .ready && (chan t 0).pc.addr == 0) = true ∧
    after (exec (.resume 1 0 0) (inState .parked idle)) (fun t => (chan t 0).st == .ready) = true ∧
    after (exec (.resume 1 0 0) stoppedOwing) (fun t => (chan t 0).pendCmd == .resume) = true ∧
    after (exec (.resume 1 0 0) (inState .ready idle)) (fun t => t.cmd.code == 5) = true := by decide
theorem test_skip : knownWord stopped (chan stopped 0) = some 0 ∧ skipBytes (chan stopped 0) 0 = 8 ∧
    after (exec (.skip 1 0 0) stopped) (fun t => (chan t 0).st == .ready && (chan t 0).pc.addr == 8) = true ∧
    after (exec (.skip 1 0 0) stoppedOwing) (fun t => (chan t 0).pendCmd == .skip) = true := by decide
theorem test_reset_ch : noTags stopped 0 = true ∧ noTags stoppedOwing 0 = false ∧ canRetire stopped 0 = false ∧
    after (exec (.resetCh 1 0 0) stopped) (fun t => (chan t 0).st == .idle && (chan t 0).a == {} && (chan t 0).assigned) = true ∧
    after (exec (.resetCh 1 0 0) stoppedOwing) (fun t => (chan t 0).st == .aborting && (chan t 0).resetting) = true := by decide
theorem test_soft_reset : accepts stopped = true ∧
    after (exec (.engineSoftReset 1 0 0) stopped) (fun t => t.srst.start == some 100 && t.cmd.busy && (chan t 0).st == .idle) = true := by
  decide
def draining : State := { stoppedOwing with srst := { start := some 100 }, clk := { now := 8292 }, cmd := { job := .softReset } }
theorem test_soft_reset_ends : noTagsAtAll { draining with ports := [] } = true ∧ noTagsAtAll draining = false ∧
    (100 : Nat) + 8192 ≤ draining.clk.now ∧
    after (exec .softResetDrainEnd draining) (fun t => t.srst.start == none && t.cmd.done && noTagsAtAll t) = true := by
  decide +kernel
def assignedIdle : State := withChan { assigned := true, entry := { addr := 0x40 }, a := regsA } idle
theorem test_start : assignedIdle.srst.start = none ∧
    after (exec (.chStart 0) assignedIdle) (fun t => (chan t 0).st == .ready && (chan t 0).pc.addr == 0x40 && (chan t 0).en) = true ∧
    after (exec (.chStart 1) assignedIdle) (fun t => t.chans == assignedIdle.chans) = true ∧
    after (exec (.chStart 0) (inState .parked idle)) (fun t => t.chans == (inState .parked idle).chans) = true := by decide
theorem test_abort : (chan begun 0).resetting = false ∧ noTags begun 0 = true ∧
    after (exec (.chAbort 0) begun) (fun t => (chan t 0).st == .idle && !(chan t 0).en && !(chan t 0).inMove) = true ∧
    after (exec (.chAbort 0) { stoppedOwing with cmd := { job := .park 0 } }) (fun t => (chan t 0).st == .aborting && (sealCcyc t).cmd.code == 5) = true := by
  decide
def parking : State := { withChan { busy with parkPend := true, parkAt := 99 } idle with cmd := { job := .park 0 } }
theorem test_park_entry : owesBeats parking 0 = false ∧ canRetire parking 0 = false ∧
    after (exec (.parkEntry 0) parking) (fun t => (chan t 0).st == .parked && (sealCcyc t).cmd.done) = true := by decide
def holding (st : ChState) : State :=
  withChan { busy with st := st, haltPend := true, faultAt := 99, haltAt := 100, held := some { cause := .bus, addr := 0x1000, dir := dirRead, resp := 1 } } idle
theorem test_halt_entry : haltReady (holding .running) 0 = true ∧ haltReady (holding .waiting) 0 = true ∧
    after (exec (.haltEntry 0 .held) (holding .running)) (fun t => halted .bus 0 t && bit (sealCcyc t).irq.cause 0) = true ∧
    after (exec (.haltEntry 0 .held) (holding .waiting)) (halted .bus 0) = true := by decide
theorem test_bad_store_word : mayExecute (runs mv) 0 = true ∧ dataAt pu8 (chan pu8 0) = true ∧
    after (exec (.haltEntry 0 (.storeWord true)) pu8) (fun t => halted .fetch 1 t && (chan t 0).faultAddr == 8) = true ∧
    after (exec (.haltEntry 0 (.storeWord false)) (runs mv)) (fun t => halted .fetch 1 t && (chan t 0).faultAddr == 0) = true ∧
    after (exec (.haltEntry 0 (.storeWord true)) (runs mv)) (fun t => t.chans == (runs mv).chans) = true := by
  decide
theorem test_bad_context_word : after (exec (.haltEntry 0 (.contextWord 31)) (runs mv)) (fun t =>
    (chan t 0).st == .halted && (chan t 0).faultInfo.cause == .ecc && bit t.irq.cause 5) = true := by decide
def atInstant : State := withChan { busy with st := .waiting, waitOn := .instant, dl := 1000 } idle
theorem test_instant : after (exec (.instantReached 0) atInstant) (fun t => (chan t 0).st == .ready && (chan t 0).pc.addr == 8) = true := by
  decide
def atDeadline : State :=
  let s := runs (.wait 1 true true false 1 6 7)
  withChan { busy with st := .waiting, waitOn := .event, waitArg := 7, dlArmed := true, dl := 1000, newWait := false } s
theorem test_deadline : deadlineDue atDeadline (chan atDeadline 0) = true ∧
    after (exec (.deadline 0) atDeadline) (fun t => halted .deadline 0 t && t.ev.raised == [6]) = true := by decide

/-! ### Scheduler and arbiters -/

def readyAt (i : Yabex) : State :=
  { runs i with chans := [(0, { busy with st := .ready, since := 99 })], movers := [] }
theorem test_select : schedOn (readyAt .stop) = true ∧ candidates (readyAt .stop) = [0] ∧
    after (exec .channelSelect (readyAt .stop)) (fun t => (chan t 0).st == .running && t.movers == []) = true ∧
    candidates idle = [] ∧ schedOn idle = true := by decide
theorem test_select_mover : candidates (readyAt mv) = [0] ∧ freeMover (readyAt mv) .bulk = some 0 ∧
    obtain (readyAt mv) (chan (readyAt mv) 0) = .word (encodeYabex mv) ∧ needsMover (encodeYabex mv) = true ∧
    after (exec .channelSelect (readyAt mv)) (fun t => (chan t 0).st == .running && (mover t 0).ch == some 0) = true := by decide
def req (m : MoverNo) (ch : Nat) : Request :=
  { who := .mover m, ch := ch, write := false, addr := 0x1000, size := 5, len := 1, tag := 5, time := 98, lo := 0, hi := 8 }
def asking : State := { begun with
  chans := [(0, busy), (1, { busy with cls := .urgent }), (2, { busy with prio := 7 })]
  ports := [(0, { openPort with reqs := [req 0 0, req 1 1], holder := some (.mover 0) })] }
theorem test_arbiter_urgent : (visible asking (port asking 0)).length = 2 ∧ (port asking 0).decidedAt = none ∧
    after (exec (.arbiterDecision 0) asking) (fun t => (port t 0).holder == some (.mover 1) &&
      (port t 0).grant == some (req 1 1) && (port t 0).reqs == [req 0 0]) = true := by decide
theorem test_arbiter_owner :
    pegOwner asking 0x4002 (fun _ _ => false) [req 0 0, req 2 2] = some (req 2 2) ∧
    (decidePort asking 0 openPort [req 0 0, req 2 2]).1 = some (.mover 2) ∧
    (decidePort asking 0 { openPort with holder := some (.mover 0) } [req 0 0, req 2 2]).1 = some (.mover 0) := by decide

/-! ### Updates, commits, the remaining commands -/

/-- R335: a low-power request and a write of CMD_BUF end a command in progress; the request and the word stand. -/
theorem test_spoiled_command :
    after (exec (.pwrTargetLow .doze) { idle with cmd := { busy := true, job := .bootWrite 0 0 0 none false } })
      (fun t => !t.cmd.busy && t.cmd.job == .none && t.pwr.st == .entering) = true ∧
    after (exec (.registerWrite 0x3001 0x0A0B0C0D (accessParity true 0x3001 0x0A0B0C0D))
        { idle with cmd := { busy := true, job := .bootRead true false true } })
      (fun t => !t.cmd.busy && t.cmd.job == .none) = true ∧
    after (exec (.registerWrite 0x3001 0x0A0B0C0D (accessParity true 0x3001 0x0A0B0C0D))
        { idle with cmd := { busy := true, job := .digest } })
      (fun t => t.cmd.busy && readByte t.cmd.buf 4 == 0x0D) = true := by decide

/-- Tile 3 is in the census, out of reset, with these rules and EN 1. -/
def gated (t : Tile) (s : State) : State := { s with gate := { map := 8, rstN := true, stage := [(0, 0x11)] }, tiles := [(3, t)] }
def tileOn : Tile := { chkOn := true, en := true, up := true }
theorem test_gate_update : present (gated tileOn idle) 3 = true ∧ accepts (gated tileOn idle) = true ∧ present idle 3 = false ∧
    after (exec (.gateUpdate 1 3 0) (gated tileOn idle)) (fun t => (tile t 3).apply && (tile t 3).staging == [(0, 0x11)] && t.cmd.busy) = true ∧
    after (exec (.gateUpdate 1 3 0) idle) (fun t => t.cmd.code == 14) = true := by decide
theorem test_gate_stage :
    after (exec (.gateUpdateStageOnly 1 ⟨3, none⟩ 0) (gated tileOn idle)) (fun t => !(tile t 3).apply && t.cmd.done &&
      get none t.gate.pendSh 3 == some [(0, 0x11)]) = true := by decide
theorem test_peg_update : (port idle 0).used = true ∧ (port idle 7).used = false ∧ commitWrap idle = 128 ∧
    after (exec (.pegUpdate 1 1 true false 0) idle) (fun t => t.cmd.job == .pegUpdate 128 1 false && t.pegCommits.length == 1) = true ∧
    after (exec (.pegUpdate 1 0 false false 0) idle) (fun t => t.cmd.done && t.dig.epoch == 1) = true ∧
    after (exec (.pegUpdate 1 0x80 false false 0) idle) (fun t => t.cmd.code == 2) = true := by decide
def bufPegs : State := { idle with cmd := { idle.cmd with buf := [(0, 5), (1, 0x80)] }, ports := [(0, openPort)] }
theorem test_peg_bad : pegBad (bufPeg bufPegs 0 0) = true ∧ pegBad (bufPeg idle 0 0) = false := by decide
theorem test_peg_update_buf : after (exec (.pegUpdate 1 1 false true 0) { bufPegs with cmd := { bufPegs.cmd with buf := [(0, 2), (1, 0x80)] } })
    (fun t => get 0 t.pegSh 0 == 0x8002) = true := by decide
theorem test_route_update : after (exec (.routeUpdate 1) { idle with shadow := { req := [(5, 0x80000000)] } }) (fun t =>
    t.routes.req == [(5, 0x80000000)] && t.dig.epoch == 1 && t.cmd.done) = true := by decide
theorem test_digest : after (exec (.digest 1) idle) (fun t => t.dig.users != [] && t.cmd.busy) = true := by decide
/-- Ridge time 1000; a commit is armed for tick `u`. -/
def armedFor (u : BitVec 64) (pegs : Bool) : State :=
  { idle with shadow := { req := [(5, 0x80000000)] }, com := { sel := 0x201, selL := 0x201, armed := true, t := u, ep := 7, pegs := pegs, snapR := { req := [(5, 0x80000000)] } } }
theorem test_commit_pegs : (armedFor 1002 false).com.snapR = (armedFor 1002 false).shadow ∧ commitWrap (armedFor 1002 false) = 128 ∧
    after (exec .commitApply (armedFor 1002 false)) (fun t => t.com.pegs && t.com.armed &&
      t.pegCommits.map (fun c => (c.wrap, c.armed)) == [(128, 1)]) = true := by decide
theorem test_commit_main : after (exec .commitApply (armedFor 1000 true)) (fun t => t.dig.epoch == 7 && !t.com.armed &&
    t.routes.req == [(5, 0x80000000)]) = true := by decide +kernel
def oneEntry : State := { idle with flog := { entries := [{ kind := 1, ch := 5 }, {}] } }
theorem test_read_log : accepts oneEntry = true ∧
    after (exec (.readLog 1 1 true 0) oneEntry) (fun t => t.cmd.done && t.cmd.res.r0 == 1 && t.flog.entries == [{}] &&
      readWord t.cmd.buf 0 == 0x84000005 && t.flog.head == 1) = true ∧
    after (exec (.readLog 1 64 false 0) oneEntry) (fun t => t.cmd.res.r0 == 2 && t.flog == oneEntry.flog) = true := by decide
theorem test_commit_at : armable idle 1002 = true ∧ armable odd 1002 = false ∧ armable idle 1001 = false ∧ armable odd 1003 = true ∧
    (1000 + 2 ^ 46 : BitVec 64).toNat = 1000 + 2 ^ 46 ∧
    after (exec (.commitAt 1 1002 7) idle) (fun t => t.com.armed && t.com.t == 1002 && t.com.ep == 7 && t.cmd.done) = true ∧
    after (exec (.commitAt 1 1001 7) idle) (fun t => t.cmd.code == 15 && bit t.irq.cause 57) = true ∧
    after (exec (.commitAt 1 (1001 + 2 ^ 46) 7) idle) (fun t => t.cmd.code == 2) = true := by decide
def member : State := { idle with gl := { role := .member, instId := 3, instCount := 8, upUsed := true, dnUsed := true, syncPer := 256 } }
theorem test_commit_at_refused : after (exec (.commitAt 1 1002 7) member) (fun t => t.cmd.code == 3) = true ∧
    after (exec (.commitAt 1 1002 7) { idle with com := { armed := true } }) (fun t => t.cmd.code == 16) = true := by decide
theorem test_set_time : after (exec (.setTime 1 5) idle) (fun t => t.clk.setTime == some (132, 5) && t.cmd.done) = true ∧
    after (exec (.setTime 1 5) member) (fun t => t.cmd.code == 3) = true := by decide
theorem test_rollcall : after (exec (.rollcall 1 7 4194304 0) idle) (fun t => t.roll.active && t.roll.round == 1 &&
      t.roll.tr == 4195304 && t.dig.users != [] && t.cmd.done) = true ∧
    after (exec (.rollcall 1 7 0 0) member) (fun t => t.cmd.code == 3) = true ∧
    after (exec (.rollcall 1 7 0 0) { idle with roll := { active := true } }) (fun t => t.cmd.code == 17) = true := by decide
theorem test_selftest : engineIdle idle = true ∧
    after (exec (.selftest 1 0 0 0) (runs mv)) (fun t => t.cmd.done) = true ∧
    after (exec (.selftest 1 1 0 0) (runs mv)) (fun t => t.cmd.busy && !(jobsDue t).cmd.done) = true ∧
    after (exec (.selftest 1 1 0 1) (runs mv)) (fun t => (jobsDue { t with clk := { now := 2148 } }).cmd.code == 18) = true ∧
    after (exec (.selftest 1 2 0 0) (runs mv)) (fun t => t.cmd.code == 7) = true := by decide
theorem test_selftest_ends : (selftestEnds 4 0 (withChan { busy with st := .idle } idle)).cmd.done = true ∧
    (chan (selftestEnds 4 0 (withChan { busy with st := .idle } idle)) 0).a = {} := by decide
theorem test_reserved_command : after (exec (.cmdReservedOpcode 1 0x11) idle) (fun t => t.cmd.code == 1 && t.cmd.err) = true ∧
    after (exec (.cmdReservedOpcode 1 0) { idle with cmd := {} }) (fun t => t.cmd.lost && t.cmd.busy) = true := by decide

/-! ### Domains, brown-out, freezes -/

def homeIn (pin : Bool) : State := { runs mv with chans := [(0, { busy with homeDom := 9, pin := pin })] }
theorem test_pd_req_rise : quiesceSet (homeIn false) 9 = [0] ∧ (homeIn false).pd.req.getLsbD 9 = false ∧
    after (exec (.pdReqRise 9) (homeIn false)) (fun t => t.pd.closed.getLsbD 9 && (chan t 0).parkPend) = true ∧
    after (exec (.pdReqRise 9) (homeIn true)) (fun t => t.pd.nackWant.getLsbD 9 && !t.pd.closed.getLsbD 9 && t.pd.nackCh == 0) = true ∧
    after (exec (.pdReqRise 9) { idle with pwr := { st := .retain } }) (fun t => t.pd.closed.getLsbD 9 && t.pd.ackWant.getLsbD 9) = true := by
  decide
def quiesced : State := { idle with pd := { req := 0x200, closed := 0x200, quiesces := [{ dom := 9, chans := [] }] } }
theorem test_quiesce_drained : tagsIn quiesced none 9 = false ∧
    after (exec (.quiesceDrained 9) quiesced) (fun t => t.pd.ackWant.getLsbD 9 && t.pd.quiesces == []) = true := by decide
theorem test_pd_req_fall : Inv { quiesced with chans := [(0, { busy with st := .parked, parkSrc := true, autoResume := true, homeDom := 9 })] } ∧
    after (exec (.pdReqFall 9) { quiesced with chans := [(0, { busy with st := .parked, parkSrc := true, autoResume := true, homeDom := 9 })] })
      (fun t => (chan t 0).st == .ready && !t.pd.closed.getLsbD 9) = true := by
  refine ⟨⟨?_, ?_, ?_, ?_⟩, ?_⟩ <;> decide +kernel
theorem test_vmon : nvWaiters idle = [] ∧
    after (exec .vmonLowAssert idle) (fun t => t.mon.vmon && bit t.irq.cause 56) = true ∧
    after (exec .vmonLowAssert { idle with cmd := { job := .bootWrite 32 64 8 (some 0) true } })
      (fun t => (jobsDue t).cmd.code == 9 && (jobsDue t).cmd.res.r2 == 40) = true ∧
    after (exec .vmonLowDeassert dim) (fun t => !t.mon.vmon) = true := by decide
theorem test_freeze : idle.mon.rails = [] ∧ idle.mon.frzSched = false ∧ idle.mon.frzArb = 0 ∧
    after (exec (.safetyCmp (.arbiter 2)) idle) (fun t => (tick t).mon.frzArb == 4 && (tick t).flog.entries.map (fun e => (e.kind, e.detail, e.port)) == [(9, 1, 2)]) = true ∧
    after (exec (.safetyCmp .scheduler) { idle with mon := { safEn := true, safEvt := 7 } }) (fun t => (tick t).ev.raised == [7]) = true := by
  decide +kernel

/-! ### Gates -/

/-- Region 0 admits privileged reads of 0x1000 to 0x1FFF by MID set 0 and domain set 0, which hold MID 2 and domain 1. -/
def rules : Table Word := [(0, 0x00001011), (2, 0x00001FE0), (128, 4), (144, 2)]
def good : GateReq := { request with par := requestParity request }
theorem test_gate_admits : (verdict rules good) = { deny := none, matched := true, region := 0 } ∧ regionMatches rules 0x1000 0 = true ∧
    (verdict rules { good with par := requestParity request + 1 }).deny = some 8 := by decide
theorem test_gate_default : regionMatches rules 0x2000 0 = false ∧
    (judge rules { good with addr := 0x2000 }).deny = some 5 ∧
    (judge rules { good with addr := 0x2000, priv := false }).deny = some 4 := by decide
def tiled (t : Tile) : State := gated t idle
theorem test_gate_check : after (exec (.gateCheck 3 { quietIn with req := some good }) (tiled { tileOn with rules := rules })) (fun t =>
      (tile t 3).outq == [good] && (tile t 3).uRqCrd) = true ∧
    after (exec (.gateCheck 3 { quietIn with req := some good }) (tiled tileOn)) (fun t => (tile t 3).outq == [] &&
      (tile t 3).denyCnt == 1 && (tile t 3).answers == [{ write := false, tag := 3, detail := 5, left := 2 }]) = true ∧
    after (exec (.gateCheck 3 { quietIn with req := some good }) (tiled { tileOn with en := false }))
      (fun t => (tile t 3).input == [good]) = true := by
  decide
def goodWrite : GateReq := { good with write := true }
def wdBeat : WdBeat := { data := 7, chk := 0, strb := 15, last := false, poison := false, par := true }
/-- A checker that holds an admitted write with its beat 0, and `n` write-data credits. -/
def creditedTile (n : Nat) : Tile :=
  { tileOn with outq := [goodWrite], dRqCred := 1, dWdCred := n, writes := [{ req := goodWrite, deny := none }], beats := [wdBeat] }
theorem test_gate_credits : wdBeat.par = wdParity wdBeat ∧
    after (exec (.gateCheck 3 quietIn) (tiled { tileOn with outq := [good], dRqCred := 1 }))
      (fun t => (tile t 3).dReq == some good && (tile t 3).dRqCred == 0) = true ∧
    after (exec (.gateCheck 3 quietIn) (tiled (creditedTile 2)))
      (fun t => (tile t 3).dReq == some goodWrite && (tile t 3).dBeat == some wdBeat && (tile t 3).dWdCred == 1) = true ∧
    after (exec (.gateCheck 3 quietIn) (tiled (creditedTile 1))) (fun t => (tile t 3).outq == [goodWrite]) = true ∧
    after (exec (.gateCheck 3 quietIn) (tiled { tileOn with up := false })) (fun t =>
      (tile t 3).uRqCrd && (tile t 3).rqAllow == 7 && (tile t 3).wdAllow == 15) = true := by decide
theorem test_gerr : after (exec (.gerrResponse 3 none none) (tiled { tileOn with answers := [{ write := false, tag := 3, detail := 5, left := 1 }] }))
      (fun t => (tile t 3).uRead == some { tag := 3, data := 0, chk := 0, last := true, resp := 2, detail := 5, par := 3 } &&
        (tile t 3).answers == []) = true ∧
    after (exec (.gerrResponse 3 none none) (tiled { tileOn with answers := [{ write := true, tag := 3, detail := 5, left := 1 }] }))
      (fun t => (tile t 3).uWrite == some { tag := 3, resp := 2, detail := 5, beat := 0, par := 1 }) = true := by decide
theorem test_gate_apply : after (exec (.gateApply ⟨3, quietIn, quietIn, quietIn⟩) (tiled { tileOn with en := false, apply := true, staging := rules })) (fun t =>
    (tile t 3).en && (tile t 3).rules == rules && bit (tile t 3).reports 5) = true := by decide
theorem test_tile_reset : after (exec (.tileReset 3 true) (tiled {})) (fun t => (tile t 3).en && (tile t 3).chkOn && bit (tile t 3).reports 4) = true ∧
    after (exec (.tileReset 3 true) idle) (fun t => (tile t 3).reports == 0) = true ∧
    after (exec (.checkerResetAssert 3) (tiled tileOn)) (fun t => tile t 3 == {}) = true ∧
    after (exec (.checkerResetAssert 3) { tiled tileOn with cmd := { job := .gateUpdate 3 false } }) (fun t => t.cmd.code == 14) = true := by
  decide
theorem test_gate_report : (1 : BitVec 6) &&& 56 = 0 ∧
    after (exec (.gateReport 3) (tiled { tileOn with reports := 7 })) (fun t => bit t.irq.cause 32 && bit t.irq.cause 33 &&
      bit t.irq.cause 34 && t.gate.evt == 8) = true := by decide
theorem test_gate_ring : after (exec (.gateRing .timeout 3 .read) idle) (fun t => bit t.irq.cause 35 && t.gate.ringTile == 3 &&
      t.gate.ringKind == 3 && t.gate.ringTimeout) = true ∧
    after (exec (.gateRing .untaken 4 .stage) { idle with gate := { ringValid := true } }) (fun t => t.gate.ringTile == 0) = true := by
  decide
def drained : State :=
  let s := tiled { chkOn := true, drained := true }
  { s with gate := { s.gate with recs := [(3, { drained := true })] } }
theorem test_gate_rule_write : (tileRec drained 3).drained = true ∧ (tileRec drained 3).en = false ∧ tileBusy drained 3 = false ∧
    after (exec (.gateRuleWrite 3 176 0xFFFFFFFF) drained) (fun t => ruleWord (tile t 3).rules 176 == 0x773) = true ∧
    after (exec (.gateRuleWrite 3 176 0xFFFFFFFF) (tiled tileOn)) (fun t => t.tiles == (tiled tileOn).tiles) = true := by decide
theorem test_gate_ctl : after (exec (.gateCtlWrite 3 true) drained) (fun t => (tile t 3).en && (tileRec t 3).en) = true ∧
    after (exec (.gateCheck 3 quietIn) (tiled { tileOn with en := false })) (fun t => !(tile t 3).drained && (tile t 3).offTclk) = true ∧
    after (exec (.gateCheck 3 quietIn) (tiled { tileOn with en := false, offTclk := true }))
      (fun t => (tile t 3).drained && bit (tile t 3).reports 3) = true ∧
    after (exec (.tileRegisterRead 3 0xC0) (tiled tileOn)) (fun t => t.cfg.ans.map (·.data) == some 1) = true := by decide
theorem test_gate_log_pop : after (exec (.gateLogPop 3 true) (tiled { tileOn with log := [{ req := good, matched := false, region := 0, detail := 5, seq := 1 }] }))
    (fun t => (tile t 3).log == []) = true := by decide

/-! ### The guyline -/

def aligned (acq : Bool) (n : Nat) : State := { member with gl := { member.gl with acq := acq, samples := List.replicate n 10 } }
theorem test_sync : hopDelay (aligned true 4) = 10 ∧ syncDelta (aligned true 4) 991 = 1 ∧ syncDelta (aligned true 4) 1054 = 64 ∧
    syncDelta (aligned true 4) 1055 = 65 ∧
    after (exec (.sync 0 991) (aligned true 4)) (fun t => t.clk == (aligned true 4).clk && t.gl.offset == 1) = true ∧
    after (exec (.sync 0 1054) (aligned true 4)) (fun t => t.clk.slewRem == 64) = true ∧
    after (exec (.sync 0 1055) (aligned true 4)) (fun t => t.clk.stepTo == some 1066 && bit t.irq.cause 55) = true := by decide
theorem test_sync_acquires : after (exec (.sync 0 2000) (aligned false 4)) (fun t => t.gl.acq && t.clk.stepTo == some 2011) = true ∧
    after (exec (.sync 0 2000) (aligned false 3)) (fun t => !t.gl.acq && t.clk.stepTo == none) = true := by decide
theorem test_slew : after (exec .slewCorrection { member with clk := { member.clk with slewRem := -2 } }) (fun t =>
    t.clk.adj == -1 && t.clk.slewRem == -2 && t.clk.slewAt == 64 && (tickRidge t.clk).slewRem == -1) = true := by decide
theorem test_frames_ready : (aligned true 0).gl.nextSync ≤ tickNow (aligned true 0) ∧
    after (exec .syncSend (aligned true 0)) (fun t => t.gl.dnLink.own.length == 1 && t.gl.nextSync == 306) = true ∧
    after (exec .echoReqSend { aligned true 0 with gl := { (aligned true 0).gl with upLink := { up := true } } }) (fun t =>
      t.gl.upLink.own.map (·.type) == [2] && t.gl.nextEcho == 306) = true ∧
    after (exec (.echoReq 9 5) member) (fun t => t.gl.dnLink.own.map (fun f => (f.type, f.dst)) == [(3, 9)]) = true := by decide
theorem test_echo_sample : after (exec (.echoRsp 3 900 20) member) (fun t => t.gl.samples == [40]) = true ∧
    (fld (1000 : BitVec 64) 0 24 - (900 : BitVec 24)).toNat = 100 := by decide
def sending : State := { member with gl := { member.gl with dnLink := { own := [ownFrame member 7 true 0 0, ownFrame member 1 true 0 0] } } }
theorem test_frame_send : maskFrame sending true = none ∧ (linkOf sending true).freeAt ≤ tickNow sending ∧
    bestBy (fun a b => decide (frameRank a.type < frameRank b.type)) ((linkOf sending true).own ++ (linkOf sending true).fwd) =
      some (ownFrame member 1 true 0 0) ∧
    after (exec (.frameSend true) sending) (fun t => t.gl.dnLink.own.length == 1 && t.gl.dnLink.freeAt == 84 &&
      (t.gl.dnLink.last.map (·.1.payload)) == some 1000) = true := by decide
theorem test_links : linkUsed member false = true ∧ (linkOf member false).up = false ∧
    after (exec (.guylineLinkUp false) member) (fun t => t.gl.upLink.up) = true ∧
    after (exec (.guylineLinkDown false) { aligned true 4 with gl := { (aligned true 4).gl with upLink := { up := true } } }) (fun t =>
      !t.gl.acq && t.gl.samples == [] && bit t.irq.cause 54) = true ∧
    after (exec (.guylineBadFrame ⟨false, [6, 5, 6]⟩) member) (fun t => t.gl.bad == 1 && bit t.irq.cause 54 && t.gl.upLink.rx == [6, 5, 6]) = true ∧
    badFrames 33 (frameNibbles (ownFrame member 1 true 0 0)) = 0 ∧
    badFrames 33 (frameNibbles (ownFrame member 9 true 0 0)) = 1 := by decide +kernel
theorem test_gevt : widen member (1000 : BitVec 24) = 1000 ∧ widen member (0xFFFFFF : BitVec 24) = 0xFFFFFFFFFFFFFFFF ∧
    after (exec (.gevtUp 9 4) member) (fun t => t.gl.mask == 4) = true ∧
    after (exec (.gevt 0 4 1000) member) (fun t => t.gl.rxGevt == [(84, 1000, 4)] &&
      t.gl.rxFwd.map (fun e => (e.1, e.2.1, e.2.2.type)) == [(84, true, 5)] && t.gl.dnLink.fwd == []) = true ∧
    (checkGevts 999 { member with gl := { member.gl with rxGevt := [(50, 999, 4), (51, 1001, 2)] } }).gl.lateDel = 4 ∧
    (checkGevts 999 { member with gl := { member.gl with rxGevt := [(50, 1000, 4)] } }).gl.armed = [(1000, 4)] := by decide
def received (down : Bool) (k : Nat) : State :=
  { member with gl := { member.gl with rxFwd := [(50, down, ownFrame member 5 true 0 0)], dnLink := { fwd := List.replicate k (ownFrame member 1 true 0 0) } } }
theorem test_forwarded : tickNow (received true 0) = 50 ∧ linkUsed (received true 0) true = true ∧
    (queueReceived (received true 7)).gl.dnLink.fwd.length = 8 ∧ (queueReceived (received true 8)).gl.drop = 1 ∧
    (queueReceived { received true 0 with clk := { now := 99, ridge := 1000 } }).gl.rxFwd.length = 1 := by decide
theorem test_late_gevt : idle.cfg.offered = [] ∧ coreOn member = true ∧
    (tick { member with gl := { member.gl with lateDel := 4 } }).ev.gdelivered = 4 := by decide +kernel
theorem test_gevt_delivery : after (exec .gevtDelivery { member with gl := { member.gl with armed := [(1000, 4), (1001, 8)] } }) (fun t =>
    t.ev.gdelivered == 4 && t.gl.armed == [(1001, 8)]) = true := by decide
theorem test_standalone_gevt :
    after (exec .standaloneGevt { idle with gl := { mask := 4, lead := 5 } }) (fun t => t.gl.armed == [(1005, 4)] && t.gl.mask == 0) = true ∧
    after (exec .standaloneGevt { idle with gl := { mask := 4 } }) (fun t => t.ev.gdelivered == 4) = true := by decide
theorem test_commit_frame : widen member (1002 : BitVec 48) = 1002 ∧ armable member 1002 = true ∧
    after (exec (.commit 0 1002 7) member) (fun t => t.com.armed && t.com.t == 1002 && t.gl.rxFwd.map (·.2.2.type) == [6]) = true := by
  decide
theorem test_roll : after (exec (.roll 0 4 7 1000) member) (fun t => t.roll.due == some (4, 7, 1000) && t.dig.users != []) = true ∧
    after (exec .rollSlot { member with roll := { due := some (4, 7, 808) } }) (fun t => t.roll.due == none &&
      t.gl.upLink.own.map (fun f => (f.type, fld f.payload 0 16)) == [(8, (4 : BitVec 16))]) = true ∧
    (808 : BitVec 64).toNat + 64 * member.gl.instId.toNat ≤ member.clk.ridge.toNat := by decide
def master : State := { idle with gl := { role := .master, instCount := 3, dnUsed := true }, roll := { active := true, round := 4, tr := 808, seen := [0, 1] } }
theorem test_roll_answers : after (exec (.rollRsp 2 4 0 true true false) master) (fun t => t.roll.seen == [0, 1, 2] && t.roll.bad == []) = true ∧
    after (exec (.rollRsp 2 4 0 true true true) master) (fun t => t.roll.bad == [(2, 5)]) = true ∧
    after (exec .rollSlot { master with roll := { master.roll with due := some (4, 7, 1000), seen := [] } }) (fun t => t.roll.seen == [0]) = true := by
  decide
theorem test_roll_close : master.roll.tr.toNat + 64 * master.gl.instCount.toNat + master.gl.tail.toNat ≤ master.clk.ridge.toNat ∧
    after (exec .rollClose master) (fun t => t.roll.done && !t.roll.active && t.roll.bad == [(2, 4)] && bit t.irq.cause 50) = true := by
  decide

/-! ### The test port -/

def underTest : State := { idle with test := { tm := true, scanEn := true, wbr := { ins := 1, outs := 2 }, run := true } }
def noPins : InPins := {}
/-- The wrapper is held in reset. -/
def wrapperOff : State := { underTest with test := { underTest.test with wrstN := false } }
theorem test_wrapper : idle.test.tm = false ∧ idle.test.wrstN = true ∧
    after (exec (.testMode ⟨true, false, true⟩) idle) (fun t => t.test.tm && !t.test.wrstN && t.test.scanEn && t.test.mode == .functional) = true ∧
    after (exec (.wsBypass ⟨0, true⟩) idle) (fun t => t.test.wby && !t.test.wso && t.test.wir == 0) = true ∧
    after (exec (.wsBypass ⟨13, true⟩) idle) (fun t => t.test.wby && t.test.wir == 13) = true ∧
    after (exec (.wsExtest ⟨noPins, [true]⟩) underTest) (fun t => t.test.mode == .boundary && t.test.wir == 1 && t.test.outs.isSome) = true ∧
    (outsOf 2).m0.portEn = true ∧ (outsOf (2 ^ 4520)).grTx = 2 ^ 151 ∧ ofShiftPath (shiftPath { ins := 1, outs := 2 }) = { ins := 1, outs := 2 } ∧
    shiftPath (ofShiftPath (shiftIn [true] (shiftPath { ins := 6, outs := 1 }))) = 2 ^ 8482 + 2 ^ 3961 + 3 ∧
    leaving [true, false] (shiftPath { ins := 2, outs := 0 }) = [false, true] ∧
    after (exec .wsSafe underTest) (fun t => t.test.mode == .isolation && (t.test.outs.map (·.pswEn) == some true)) = true ∧
    after (exec .wsSafe idle) (fun t => t.test == idle.test) = true ∧
    after (exec (.wsBypass ⟨0, true⟩) wrapperOff) (fun t => t.test == wrapperOff.test) = true := by decide +kernel
theorem test_preload : after (exec (.wsPreload { ins := 0, outs := 1 }) underTest) (fun t => t.test.wbr == { ins := 0, outs := 1 } &&
    t.test.mode == .functional && t.test.shifted.head? == some true) = true := by decide +kernel
theorem test_mbist : underTest.test.run = true ∧ after (exec .mbistRun underTest) (fun t => t.test.run && t.test.stat == 0) = true ∧
    after (exec (.mbistDone 0x21) underTest) (fun t => t.test.stat == 0x8021 && !t.test.run) = true := by decide

/-! ### Further witnesses: for each clause of a statement a state and operands that meet its hypotheses -/

theorem test_wait_at_15 : atInstr (withLine 15 (runs (.wait 0 false false false 0 0 5))) 0 (.wait 0 false false false 0 0 5) = true ∧
    after (exec (.wait 0) { withLine 15 (runs (.wait 0 false false false 0 0 5)) with lines := [(5, { cnt := 15, use := .over })] })
      (fun t => (line t 5).cnt == 15 && !(line t 5).ovf && (chan t 0).pc.addr == 8) = true := by decide
theorem test_wait_is_new : (chan (withLine 0 (runs (.wait 0 true false false 600 0 5))) 0).newWait = true ∧
    (1000 : Nat) + 600 < 2 ^ 64 ∧ (7 : BitVec 12).toNat ∉ (runs (.wait 1 false false false 0 0 7)).ev.delivered ∧
    (runs (.wait 3 false false false 0 0 63)).ev.gdelivered.getLsbD 63 = false := by decide
def stopHere (c : Channel → Channel) : State := { runs .stop with chans := [(0, c busy)] }
theorem test_stop_starts_again : atInstr (stopHere (fun c => { c with enAt := some 100 })) 0 .stop = true ∧
    after (exec (.stop 0) (stopHere (fun c => { c with enAt := some 100 }))) (fun t => (chan t 0).startNext) = true := by decide
theorem test_stop_parked_first : atInstr (stopHere (fun c => { c with parkPend := true, parkAt := 100 })) 0 .stop = true ∧
    after (exec (.stop 0) (stopHere (fun c => { c with parkPend := true, parkAt := 100 }))) (fun t => (chan t 0).st == .running) = true := by decide
theorem test_puti_keeps_slot : (chan (moving { geo := geo, resv := 1, slots := [{ tag := 3, unit := 0, len := 1 }] } idle) 0).run ≠ none ∧
    unstopped (runs mv) 0 = true ∧ unstopped (runs pu) 0 = true ∧ (chan (runs pu) 0).run = none := by decide
theorem test_retire_geometry : geo.imm = none ∧ geo.sreg ≠ geo.dreg ∧ geo.wt = false := by decide

def stoppedNow : State := withChan { busy with st := .idle, en := false, stopAt := some 100 } idle
def inSelfTest : State := { assignedIdle with cmd := { busy := true, job := .selftest 2 0 900 } }
theorem test_enable_clauses : hostTurn assignedIdle = true ∧ (chan assignedIdle 0).stopAt ≠ some 100 ∧ selfTesting assignedIdle = false ∧
    after (exec (.chStart 0) stoppedNow) (fun t => (chan t 0).st == .idle && (chan t 0).startNext) = true ∧
    after (exec (.chStart 0) (inState .running idle)) (fun t => (chan t 0).enAt == some 100) = true ∧
    selfTesting inSelfTest = true ∧ hostTurn inSelfTest = true ∧
    after (exec (.chStart 0) inSelfTest) (fun t => (chan t 0).st == .idle) = true ∧
    after (exec (.chStart 0) { assignedIdle with srst := { start := some 96 } }) (fun t => (chan t 0).st == .idle) = true := by decide
theorem test_abort_clauses : hostTurn begun = true ∧ (chan (unstop 0 stoppedNow) 0).st = .running ∧
    after (exec (.chAbort 0) stoppedNow) (fun t => (chan t 0).st == .idle) = true ∧ noTags stoppedOwing 0 = false ∧
    after (exec (.chAbort 0) (inState .aborting idle)) (fun t => (chan t 0).st == .aborting) = true := by decide
theorem test_halt_entry_clauses : (chan (holding .running) 0).held ≠ none ∧ (chan pu8 0).inMove = false ∧
    after (exec (.haltEntry 0 (.contextWord 1)) (inState .aborting idle)) (fun t => (chan t 0).st == .aborting && bit t.irq.cause 5) = true := by
  decide
theorem test_park_entry_clauses : (chan parking 0).parkPend = true ∧ (chan parking 0).held = none ∧ (chan parking 0).parkAt < parking.clk.now ∧
    parking.cmd.job = .park 0 := by decide
/-- Channel 0 waits on line 5 with its deadline at ridge time now. -/
def lineDeadline (u : EdgeUse) : State :=
  { withChan { busy with st := .waiting, waitOn := .line, waitArg := 5, dlArmed := true, dl := 1000, newWait := false } (withLine 0 idle) with
    lines := [(5, { use := u })] }
theorem test_deadline_clauses : deadlineDue (lineDeadline .none) (chan (lineDeadline .none) 0) = true ∧
    (line (lineDeadline .none) 5).use ≠ .wake ∧ after (exec (.deadline 0) (lineDeadline .none)) (halted .deadline 0) = true ∧
    after (exec (.deadline 0) (lineDeadline .wake)) (fun t => (chan t 0).st == .waiting) = true ∧ (chan atInstant 0).dl.toNat ≤ 1000 := by decide

theorem test_select_clauses : isCandidate (readyAt .stop) 0 (chan (readyAt .stop) 0) = true ∧
    obtain (readyAt .stop) (chan (readyAt .stop) 0) = .word (encodeYabex .stop) ∧ needsMover (encodeYabex .stop) = false ∧
    canon ({} : Mover) (readyAt mv).movers = true := by decide

theorem test_found_words :
    after (exec (.haltEntry 0 (.found .fixedStore)) idle) (fun t => t.mon.eccSrc == 3 && t.mon.eccCnt == 1) = true ∧
    after (exec (.haltEntry 0 (.found (.kept .epoch))) idle) (fun t => bit t.irq.cause 5 && t.flog.entries.length == 1) = true := by
  decide

/-- Mover 0 of channel 0 sends its last burst to port 1; a PUTI to the same port follows its MOVE. -/
def chaining : State :=
  let s := moving { geo := { geo with n := 16 }, resv := 2, rd := 16, slots := [{ tag := 3, unit := 0, len := 2, launched := true }] }
    { runs mv with prog := writeBytes (writeBytes [] 0 8 (encodeYabex mv).toNat) 8 8 (encodeYabex pu).toNat }
  { s with ports := [(0, openPort), (1, { openPort with holder := some (.mover 0), burst := some { ch := 0, tag := 3, len := 2, next := 1 } })] }
theorem test_chain_ahead : chainAhead chaining 1 (port chaining 1) = true ∧ chainAhead idle 1 (port idle 1) = false ∧
    decidePort chaining 1 (port chaining 1) [] = (some (.mover 0), none) := by decide
theorem test_arbiter_frozen : (port asking 0).en = true ∧
    after (exec (.arbiterDecision 0) { asking with mon := { frzArb := 1 } }) (fun t => (port t 0).holder == some (.mover 0) &&
      (port t 0).reqs == [req 0 0, req 1 1] && (port t 0).decidedAt == some 100) = true := by decide
def leaving : State := { asking with ports := [(0, { openPort with reqs := [{ req 0 0 with gone := true }], holder := some (.mover 0) })] }
theorem test_arbiter_dead_cycle : (decidePort leaving 0 (port leaving 0) (visible leaving (port leaving 0))).2 = some { req 0 0 with gone := true } ∧
    after (exec (.arbiterDecision 0) leaving) (fun t => (port t 0).grant == none && (port t 0).reqs.length == 1) = true := by decide

/-! The configuration port. -/

theorem test_port_clauses : portReady idle = true ∧ portReady { idle with clk := { now := 101, ridge := 1000 } } = false ∧
    after (exec (.evtSw 9) { idle with clk := { now := 101, ridge := 1000 } }) (fun t => t.cfg.offered == [.evtSw 9] && t.ev.raised == []) = true ∧
    after (exec (.evtSw 9) { idle with pwr := { st := .off } }) (fun t => t.cfg.offered == [] && t.ev.raised == []) = true ∧
    (servePort { idle with cfg := { offered := [.evtSw 9] } }).ev.raised = [9] ∧
    (drivePort { idle with cfg := { ans := some { due := 100, data := 7 } } }).cfg.rdata = 7 ∧
    (drivePort { idle with cfg := { ack := true, ans := some { due := 96 } } }).cfg.ack = false := by decide
theorem test_port_boundaries : heldInAo 0x1C00 = true ∧ coreAnswers idle = true ∧
    after (exec (.captureRead 0x1C00 ⟨0, (accessParity false 0x1C00 0)⟩) (keepStart idle)) (fun t =>
      t.cfg.ans.map (·.data) == some 1000) = true ∧
    (0x3000 : BitVec 18).toNat = 0x3000 ∧ (0x33FF : BitVec 18).toNat < 0x3400 ∧ usesBuf idle.cmd.job = false ∧
    usesBuf (.bootRead true false true) = true := by decide
theorem test_log_lost_by_host : fullLog.flog.fresh = 0 ∧ hostWon 0x100 fullLog = false ∧ hostWon 0x100 (hostWrote 0x100 fullLog) = true ∧
    (logFault {} (hostWrote 0x100 fullLog)).flog.lost = 0 := by decide

/-! Power and boot. -/

theorem test_power_clauses :
    after (exec (.pwrTargetLow .doze) { idle with cmd := { busy := true, job := .digest } }) (fun t => !t.cmd.busy && t.cmd.job == .none) = true ∧
    after (exec (.pwrTargetLow .off) { idle with pwr := { st := .retain, target := 2 } }) (fun t => t.pwr.st == .offRdy && t.pwr.target == 3) = true ∧
    dozing.pwr.wakeT.toNat ≤ dozing.clk.ridge.toNat ∧ idle.com.armed = false ∧ idle.mon.vmon = false := by decide
theorem test_restructure_clauses : allLost filled.boot.rtags = false ∧ allLost (15 : BitVec 4) = true ∧
    after (exec (.restructure 1 false 0 (.image noCopy) (.image noCopy) 0 none) (runs mv)) (fun t => t.cmd.code == 7) = true ∧
    after (exec (.restructure 1 false 0 (.image noCopy) (.image noCopy) 0 none) { filled with bs := { safe := true } })
      (fun t => t.cmd.code == 8) = true ∧
    after (exec (.restructure 1 false 0 (.noAnswer 0 noCopy) (.image noCopy) 0 none) filled) (fun t => t.cmd.busy) = true ∧
    after (exec (.restructure 1 false 0 (.image noCopy) (.image noCopy) 0 none) { filled with boot := { rtags := 15 } })
      (fun t => t.cmd.code == 12) = true := by decide +kernel
theorem test_load_clauses : (0x3FFF8 : Word).toNat % 8 = 0 ∧ (0x3FFF8 : Nat) + 8 ≤ 0x40000 ∧
    after (exec (.loadProgramStore 1 false 0 4096 0) filled) (fun t => t.cmd.done) = true ∧
    after (exec (.loadProgramStore 1 false 0 4104 0) filled) (fun t => t.cmd.code == 2) = true ∧
    after (exec (.loadProgramStore 1 false 4 8 0) filled) (fun t => t.cmd.code == 2) = true ∧
    after (exec (.loadProgramStore 1 false 0 0 0) filled) (fun t => t.cmd.code == 2) = true ∧
    after (exec (.loadOptionArea 1 false 0x40000 32 0 (.noAnswer 0)) filled) (fun t => t.cmd.busy) = true ∧
    after (exec (.loadOptionArea 1 false 8 32 0 .ok) filled) (fun t => t.cmd.code == 2) = true := by decide +kernel
theorem test_verify_clauses : accepts filled = true ∧
    after (exec (.verify 1 false 0 (.noAnswer 0 noCopy) none) filled) (fun t => t.cmd.busy) = true ∧
    after (exec (.verifyRead 1 true 0 32 0 (.image noCopy)) filled) (fun t => t.cmd.code == 2) = true ∧
    after (exec (.verifyRead 1 false 8 32 0 (.image noCopy)) filled) (fun t => t.cmd.code == 2) = true := by decide +kernel

/-! Channel commands. -/

theorem test_park_clauses :
    after (exec (.park 1 0 0) stoppedNow) (fun t => (chan t 0).parkPend && (chan t 0).st == .running && (chan t 0).en && t.cmd.busy) = true ∧
    after (exec (.park 1 0 0) (inState .aborting idle)) (fun t => t.cmd.code == 5) = true ∧
    unmoved (lineDeadline .none) 0 = true ∧ condOpen (lineDeadline .none) 0 (chan (lineDeadline .none) 0) = true ∧
    after (exec (.park 1 0 0) (lineDeadline .none)) (fun t => (sealCcyc t).cmd.code == 6 && halted .deadline 0 t) = true ∧
    after (exec (.park 1 0 0) (withChan { busy with st := .parked, parkSrc := true } idle)) (fun t => !(chan t 0).parkSrc) = true ∧
    (chan (withChan {} idle) 0).assigned = false := by decide
theorem test_command_clauses : (chan stopped 0).assigned = true ∧ (chan stoppedOwing 0).st = .halted ∧
    after (exec (.skip 1 0 0) (inState .parked idle)) (fun t => t.cmd.code == 5) = true ∧
    ownedLines (withLine 3 stopped) 0 = [5] ∧
    after (exec (.resetCh 1 0 0) (withLine 3 stopped)) (fun t => (line t 5).cnt == 0) = true ∧
    after (exec .softResetDrainEnd { draining with ports := [], clk := { now := 104 } }) (fun t => t.cmd.done) = true ∧
    allTagsIn { draining with ports := [] } = true := by decide +kernel

/-! Updates and commits. -/

theorem test_commit_clauses : (armedFor 1000 true).com.snapR = oldShadow (armedFor 1000 true) ∧
    (armedFor 1002 false).com.selL = (armedFor 1002 false).com.sel ∧ (1002 : Nat) ≤ 1000 + 2 ∧
    after (exec .commitApply { armedFor 1000 true with
        gate := (gated tileOn idle).gate, tiles := [(3, tileOn)]
        com := { (armedFor 1000 true).com with gates := 8, gatesL := 8 } })
      (fun t => (tile t 3).apply && t.com.armed && (tile t 3).rules == []) = true := by decide +kernel
theorem test_update_clauses : (gated tileOn idle).gate.rstN = true ∧
    after (exec (.gateUpdateStageOnly 1 ⟨3, some .timeout⟩ 0) (gated tileOn idle)) (fun t => t.cmd.code == 14 && bit t.irq.cause 35 &&
      get none t.gate.pendSh 3 == none) = true ∧
    after (exec (.gateUpdateStageOnly 1 ⟨3, none⟩ 0) idle) (fun t => t.cmd.code == 14) = true ∧
    after (exec (.gateUpdate 1 3 0) (gated { tileOn with chkOn := false } idle)) (fun t => t.cmd.code == 14) = true ∧
    after (exec (.pegUpdate 1 0 true false 0) idle) (fun t => t.cmd.busy && t.pegCommits.length == 1) = true := by decide
def hashing (u : ShaUser) (j : Job) : State := { idle with dig := { users := [u, .digest] }, cmd := { busy := true, job := j } }
theorem test_rehash_clauses :
    after (exec .rehashDone (hashing .roll .none)) (fun t => t.roll.fresh && t.dig.users == [.digest]) = true ∧
    after (exec .rehashDone (hashing .digest .digest)) (fun t => t.cmd.done && t.dig.users == [.digest]) = true ∧
    after (exec .digestRecUpdate { idle with dig := { recPend := true } }) (fun t => !t.dig.recPend) = true := by decide +kernel
theorem test_rollcall_clauses : (4194304 : BitVec 24).toNat ≤ 4194304 ∧
    after (exec (.rollcall 1 7 4194304 0) { idle with gl := { dnUsed := true } }) (fun t => t.cmd.busy && t.gl.dnLink.own.length == 1) = true := by
  decide

/-! Domains, gates, the cascade, tests. -/

theorem test_domain_clauses : unstopAll (homeIn false) = homeIn false ∧
    after (exec (.pdReqRise 9) { homeIn false with clk := { now := 101 } }) (fun t => t.pd.pin.getLsbD 9 && t.pd.closed == 0) = true ∧
    quiesced.pd.req.getLsbD 9 = true ∧ quiesced.pd.quiesces.find? (fun q => q.dom == 9) = some { dom := 9, chans := [] } ∧
    after (exec .vmonLowAssert idle) (fun t => (tick t).mon.nvStop) = true := by decide +kernel
theorem test_gate_clauses :
    after (exec (.gateReport 3) { tiled { tileOn with reports := 32, oldRules := some [] } with cmd := { busy := true, job := .gateUpdate 3 false } })
      (fun t => t.cmd.done && t.dig.epoch == 1 && (tile t 3).oldRules == none) = true ∧
    after (exec (.gateRing .parity 3 .apply) { tiled { tileOn with rules := [(0, 1)], oldRules := some [(0, 2)] } with
      cmd := { busy := true, job := .gateUpdate 3 false } }) (fun t => t.cmd.code == 14 && (tile t 3).rules == [(0, 2)]) = true := by decide
theorem test_answers_pass : after (exec (.gerrResponse 3 (some (rdBeat 5 0 0)) (some (wrResp 3 0 0 0)))
      (tiled { tileOn with answers := [{ write := false, tag := 3, detail := 5, left := 2 }] })) (fun t =>
        (tile t 3).uRead.isSome && (tile t 3).uWrite.isSome && (tile t 3).answers.length == 1) = true := by decide +kernel
def absentTile : State := { drained with gate := { drained.gate with map := 0 } }
def updating : State := { drained with cmd := { busy := true, job := .gateUpdate 3 false } }
theorem test_tile_clauses : present absentTile 3 = false ∧
    after (exec (.gateRuleWrite 3 0 5) absentTile) (fun t => bit t.irq.cause 35 && t.tiles == absentTile.tiles) = true ∧
    after (exec (.gateCtlWrite 3 true) absentTile) (fun t => t.gate.ringValid) = true ∧ tileBusy updating 3 = true ∧ hostTurn updating = true ∧
    after (exec (.gateRuleWrite 3 176 5) updating) (fun t => t.gate.held == some (3, 176, some 5) && t.cfg.ans == none) = true ∧
    after (exec (.tileRegisterRead 3 0x1FF) updating) (fun t => t.gate.held == some (3, 0x1FF, none)) = true ∧
    after (exec (.gateCtlWrite 3 true) updating) (fun t => t.gate.held == some (3, 0xC0, some 1)) = true ∧
    after (exec (.gateLogPop 3 true) updating) (fun t => t.gate.held == some (3, 0xC5, some 1)) = true := by decide
theorem test_slew_on_a_master : after (exec .slewCorrection { master with clk := { now := 100, ridge := 1000, slewRem := 5 } }) (fun t =>
    t.clk.slewRem == 5 && t.clk.adj == 0) = true := by decide
def rollSending : State :=
  { master with gl := { master.gl with dnLink := { own := [rollFrame master 4 7 8] } }, cmd := { busy := true, job := .rollcall { r0 := 4 } } }
theorem test_send_clauses : after (exec (.frameSend true) rollSending) (fun t => t.cmd.done && t.cmd.res.r0 == 4) = true ∧
    maskFrame { member with gl := { member.gl with mask := 4 } } false ≠ none ∧
    after (exec (.frameSend false) { member with gl := { member.gl with mask := 4 } }) (fun t => t.gl.mask == 0) = true ∧
    maskFrame { master with gl := { master.gl with mask := 4 } } true ≠ none ∧
    after (exec (.frameSend true) { master with gl := { master.gl with mask := 4 } }) (fun t => t.gl.armed.length == 1) = true := by decide
theorem test_link_loss_stops_sync : after (exec (.guylineLinkDown false) { member with gl := { member.gl with
    upLink := { up := true }, dnLink := { own := [ownFrame member 1 true 0 0, ownFrame member 3 true 0 0] } } }) (fun t =>
      t.gl.dnLink.own.map (·.type) == [3]) = true := by decide
theorem test_without_tm : exec (.wpIntest 0) idle = .next idle ∧ exec .mbistRun idle = .next idle ∧ exec (.wsExtest ⟨noPins, [true]⟩) idle = .next idle :=
  ⟨rfl, rfl, rfl⟩

/-! ### Witnesses of the clauses on faults, steps and beats -/

theorem test_tick_clauses : (tick { odd with clk := { odd.clk with stepTo := some 2000 } }).clk.ridge = 2000 ∧
    (tick { odd with clk := { odd.clk with setTime := some (102, 5), stepTo := some 2000 } }).clk.ridge = 5 ∧
    (tick { odd with clk := { odd.clk with setTime := some (103, 5), adj := 1, slewRem := 3 } }).clk.ridge = 1002 ∧
    (tick { odd with clk := { odd.clk with adj := 1, slewRem := 3 } }).clk.slewRem = 2 ∧
    (tick { odd with irq := { cause := 1, mask := 1 } }).irq.d1 = 1 := by decide +kernel
theorem test_move_check_clauses :
    checkMove idle { regsA with r1 := 0x60010000 } 0 1 2 true true 0 false 7 = .error (illegal 5 0x60010000) ∧
    checkMove idle { regsA with r0 := 0x1001, r1 := 0x6000FFE4 } 0 1 2 true true 0 false 7 = .error (illegal 5 0x6000FFE4) ∧
    checkMove idle { regsA with r1 := 0x60000002 } 0 1 2 true true 0 false 7 =
      .error { cause := .align, addr := 0x60000002, dir := dirWrite, port := 1 } := ⟨rfl, rfl, rfl⟩
/-- Channel 0 at an instruction, with other A registers. -/
def withRegs (a : Regs4 48) (i : Yabex) : State := bound { busy with a := a } (runs i)
theorem test_failed_check : mayMove (withRegs { regsA with r1 := 2 } mv) 0 = true ∧ atInstr (withRegs { regsA with r1 := 2 } mv) 0 mv = true ∧
    after (exec (.move 0) (withRegs { regsA with r1 := 2 } mv)) (fun t => halted .illegal 5 t && (chan t 0).faultAddr == 2) = true ∧
    atInstr (withRegs { regsA with r1 := 0x60000002 } pu) 0 pu = true ∧ mayMove (withRegs { regsA with r1 := 0x60000002 } pu) 0 = true ∧
    after (exec (.puti 0) (withRegs { regsA with r1 := 0x60000002 } pu)) (fun t => halted .align 0 t && (chan t 0).faultAddr == 0x60000002) = true := by
  decide
/-- A MOVE is executed again. -/
def again (r : Option Run) (recheck : Bool) : State := bound { busy with inMove := true, moveWr := 3, moveRd := 5, recheck := recheck, run := r } (runs mv)
theorem test_move_goes_on : mayMove (again none true) 0 = true ∧ unstopped (again none true) 0 = true ∧ atInstr (again none true) 0 mv = true ∧
    after (exec (.move 0) (again none true)) (fun t => (chan t 0).run == some (newRun geo 3 3 []) && (chan t 0).moveRd == 3) = true ∧
    mayMove (again (some reserved) true) 0 = true ∧ reserved.geo = geo ∧
    after (exec (.move 0) (again (some reserved) true)) (fun t => !(chan t 0).recheck && (chan t 0).run == some reserved) = true ∧
    mayMove (again (some reserved) false) 0 = true ∧
    after (exec (.move 0) (again (some reserved) false)) (fun t => t.chans == (again (some reserved) false).chans) = true := by decide
/-- A MOVE with WT 1 is done, and its watched word is `w`. -/
def watched (w : BitVec 32) : State :=
  bound { busy with inMove := true, watchVal := 7, tap := some w, run := some { geo := { geo with wt := true }, resv := 1, rd := 8, wr := 1 } } (runs mv)
theorem test_watch_tap : canRetire (watched 7) 0 = true ∧
    after (exec (.moveRetire 0) (watched 7)) (fun t => (chan t 0).watchCnt == 3 && (chan t 0).watchVal == 7) = true ∧
    after (exec (.moveRetire 0) (watched 8)) (fun t => (chan t 0).watchCnt == 0 && (chan t 0).watchVal == 8) = true := by decide
def wasIdle : State := { inState .halted idle with before := [(0, some { chan := { busy with st := .idle }, mover := none })] }
theorem test_abort_of_an_idle_channel : idleBefore wasIdle 0 = true ∧
    after (exec (.chAbort 0) wasIdle) (fun t => (chan t 0).st == .halted) = true := by decide
/-- Line 5 wakes its owner, channel 1. -/
def othersEdge : State := { lineDeadline .wake with routes := { req := [(5, 0x80010000)] } }
theorem test_deadline_of_no_owner : lineOwner othersEdge 5 = some 1 ∧ (line othersEdge 5).use = .wake ∧
    after (exec (.deadline 0) othersEdge) (halted .deadline 0) = true := by decide

/-- Channel 1 is an URGENT candidate at a MOVE; channel 0 holds the one mover. -/
def preempting : State :=
  let s := moving reserved (runs mv)
  { s with chans := s.chans ++ [(1, { busy with st := .ready, since := 99, cls := .urgent })], movers := (List.range 64).map (fun m => (m, { ch := some (if m = 0 then 0 else 9) })) }
theorem test_preemption : schedOn preempting = true ∧ candidates preempting = [1] ∧ freeMover preempting .urgent = none ∧
    bestBy (betterVictim preempting) (victims { preempting with movers := [(0, { ch := some 0 })] }) = some (0, 0) := by decide +kernel
/-- Mover 0 was taken from channel 1, which is READY in its MOVE. -/
def taken (h : Option FaultRec) : State :=
  { begun with chans := [(0, busy), (1, { busy with st := .ready, inMove := true, held := h })], movers := [(0, { ch := some 0, victim := some 1 })] }
theorem test_mover_returns : moverOf (taken none) 1 = none ∧ (taken none).mon.frzSched = false ∧
    (mover (releaseMover 0 (taken none)) 0).ch = some 1 ∧ (chan (releaseMover 0 (taken none)) 1).st = .running ∧
    (chan (releaseMover 0 (taken (some { cause := .late }))) 1).st = .halted ∧
    mover (releaseMover 0 { taken none with movers := [(0, { ch := some 0 })] }) 0 = {} := by decide

/-! The arbiter and the port cycle. -/

theorem test_arbiter_lends : (decidePort asking 0 { openPort with holder := some (.mover 0) } [req 0 0]).1 = some (.mover 0) ∧
    eligible { openPort with rqCred := 0 } (req 0 0) = false ∧
    (decidePort asking 0 { openPort with rqCred := 0, holder := some (.mover 0) } [req 0 0]).2 = none ∧
    eligible openPort { req 0 0 with write := true, len := 17 } = false ∧
    (decidePort asking 0 { openPort with holder := some (.mover 0) } [{ req 0 0 with write := true, len := 17 }, req 2 2]).2 = some (req 2 2) ∧
    (decidePort asking 0 { openPort with holder := some (.mover 0) } [{ req 0 0 with write := true, len := 17 }, req 2 2]).1 = some (.mover 0) ∧
    (decidePort asking 0 { openPort with holder := some (.mover 0) } [req 0 0, req 1 1]).1 = some (.mover 1) ∧
    (decidePort asking 0 { openPort with holder := some (.mover 0) } [req 2 2]).1 = some (.mover 2) ∧
    (decidePort asking 0 openPort [req 0 0]).1 = some (.mover 0) := by decide
def urgentChain : State := { chaining with chans := chaining.chans.map (fun e => (e.1, { e.2 with cls := .urgent })) }
theorem test_urgent_chain : chainAhead urgentChain 1 (port urgentChain 1) = true ∧ holderUrgent urgentChain (port urgentChain 1) = true ∧
    (decidePort urgentChain 1 (port urgentChain 1) [{ req 5 0 with ch := 0 }]).1 = some (.mover 0) := by decide
def starving (v : Bool) : State :=
  { asking with ports := [(0, { openPort with reqs := [req 0 0], ages := [(0, 4)], thrBulk := 5, starve := { valid := v } })] }
theorem test_starve : visible (starving false) (port (starving false) 0) = [req 0 0] ∧ (port (starving false) 0).presents = none ∧
    threshold (port (starving false) 0) .bulk = 5 ∧
    after (exec (.arbiterDecision 0) (starving false)) (fun t => bit t.irq.cause 16 && (port t 0).starve.valid && get 0 (port t 0).ages 0 == 5) = true ∧
    after (exec (.arbiterDecision 0) (starving true)) (fun t => bit t.irq.cause 16 && (port t 0).starve == { valid := true }) = true ∧
    after (exec (.arbiterDecision 0) { starving false with ports := [(0, { openPort with reqs := [req 0 0], thrBulk := 9 })] }) (fun t =>
      t.irq == idle.irq && !(port t 0).starve.valid) = true := by decide
/-- Port 0 has granted a request to channel 0. -/
def granted (q : Request) (c : Channel) : State := { bound c idle with ports := [(0, { openPort with grant := some q })] }
theorem test_presents_read : portsSilent (granted (req 0 0) busy) = false ∧
    (port (beginCycle 0 (granted (req 0 0) busy)) 0).rqOut = some (rqOf busy (req 0 0)) ∧
    (get none (port (beginCycle 0 (granted (req 0 0) busy)) 0).rtags 5).isSome = true ∧
    (port (beginCycle 0 idle) 0).rqOut = none ∧ (port idle 0).grant = none ∧ (port idle 0).burst = none := by decide
def wreq : Request := { who := .mover 0, ch := 0, write := true, addr := 0x60000000, size := 5, len := 2, tag := 3, time := 98, lo := 0, hi := 8 }
def writer (n : Nat) : Channel :=
  { busy with inMove := true, run := some { geo := { geo with n := 16 }, resv := 2, rd := 16, slots := [{ tag := 3, unit := 0, len := n, launched := true }] } }
theorem test_presents_write : (slotOf (granted wreq (writer 2)) 0 3).map (·.tag) = some 3 ∧
    ((port (beginCycle 0 (granted wreq (writer 2))) 0).wdOut.map (·.last)) = some false ∧
    (port (beginCycle 0 (granted wreq (writer 2))) 0).burst = some { ch := 0, tag := 3, len := 2, next := 1 } ∧
    (port (beginCycle 0 (granted { wreq with len := 1 } (writer 1))) 0).burst = none := by decide +kernel
def owing : State := { bound (writer 2) idle with ports := [(0, { openPort with burst := some { ch := 0, tag := 3, len := 2, next := 1 } })] }
theorem test_presents_beat : (slotOf owing 0 3).map (·.tag) = some 3 ∧ (chan owing 0).run ≠ none ∧
    ((port (beginCycle 0 owing) 0).wdOut.map (fun w => (w.last, w.poison))) = some (true, true) ∧
    (port (beginCycle 0 owing) 0).burst = none := by decide +kernel

/-! Beats and responses. -/

def withTag (k : RTag) : State := { reading with ports := [(0, { openPort with rtags := [(5, some k)] }), (1, openPort)] }
theorem test_broken_tag : after (exec (.readResponseBeat 0 (rdBeat 5 0 0)) (withTag { readOut with broken := true })) (fun t =>
      (port t 0).rtags == [] && t.chans == reading.chans) = true ∧ readOut.failed = false ∧ readOut.orphan = false := by decide +kernel
def fetchOut : RTag := { ch := 0, fetch := true, addr := 0x1040, len := 1 }
def fetchWaits : State := { fetching with
  chans := [(0, { busy with st := .waiting, waitOn := .fetch, fetched := true, pc := { sys := true, addr := 0x1048 } })]
  ports := [(0, { openPort with fetch := true, rtags := [(5, some fetchOut)] })] }
theorem test_fetch_group : get none (port fetchWaits 0).rtags 5 = some fetchOut ∧ (chan fetchWaits 0).held = none ∧
    after (exec (.readResponseBeat 0 (rdBeat 5 0 0)) fetchWaits) (fun t => (chan t 0).st == .ready && (chan t 0).buf.isSome) = true ∧
    after (exec (.readResponseBeat 0 { rdBeat 5 0 0 with data := 1 }) fetchWaits) (fun t =>
      (chan t 0).fetchIn == some (100, 0x1040, 0) && t.mon.eccCnt == 1) = true ∧
    after (exec (.readResponseBeat 0 (rdBeat 5 1 3)) fetchWaits) (fun t => (chan t 0).haltPend &&
      (chan t 0).held.map (fun h => (h.cause, h.dir)) == some (.bus, dirFetch)) = true := by decide +kernel
def heldGroup : State := { fetchWaits with chans := [(0, { chan fetchWaits 0 with fetchIn := some (99, 0x1040, 0) })] }
theorem test_held_group : Inv heldGroup ∧ (chan (heldGroups heldGroup) 0).st = .ready ∧ (chan (heldGroups heldGroup) 0).fetchIn = none := by
  refine ⟨⟨?_, ?_, ?_, ?_⟩, ?_, ?_⟩ <;> decide +kernel
def badParity : RdBeat := { rdBeat 5 0 0 with par := (rdBeat 5 0 0).par + 1 }
theorem test_read_parity : rdParityOk badParity = false ∧
    after (exec (.readResponseBeat 0 badParity) reading) (fun t => bit t.irq.cause 3 && t.chans == reading.chans &&
      (port t 0).rtags == [(5, some { readOut with broken := true })] && t.flog.entries.map (fun e => (e.kind, e.detail)) == [(7, 0)]) = true ∧
    after (exec (.readResponseBeat 0 badParity) idle) (fun t => t.flog.entries.map (fun e => (e.kind, e.detail)) == [(7, 1)]) = true := by decide
/-- Write tag 3 of port 1 is outstanding for a channel, with more of its tag given. -/
def writeTag (c : Channel) (f : WTag → WTag) : State :=
  { withChan c idle with ports := [(0, openPort), (1, { openPort with wtags := [(3, some (f writeOut))] })] }
theorem test_late_write : after (exec (.writeResponse 1 (wrResp 3 2 1 0)) (writeTag busy (fun k => { k with cur := false }))) (fun t =>
      (chan t 0).haltPend && (chan t 0).held.map (·.cause) == some .late) = true ∧
    canRetire (writeTag busy (fun k => { k with cur := false })) 0 = false ∧ unmoved (writeTag busy id) 0 = true ∧
    after (exec (.writeResponse 1 (wrResp 3 2 1 0)) (writeTag { busy with st := .idle } id)) (halted .late 1) = true ∧
    after (exec (.writeResponse 1 (wrResp 3 2 1 0)) (writeTag { busy with st := .parked } id)) (halted .late 1) = true ∧
    after (exec (.writeResponse 1 (wrResp 3 2 1 0)) (writeTag { busy with st := .halted } (fun k => { k with cur := false }))) (fun t =>
      (chan t 0).logs.map (·.kind) == [2]) = true := by decide
theorem test_poisoned_write : after (exec (.writeResponse 1 (wrResp 3 4 0 0))
      (writeTag { busy with inMove := true, run := some { halfWay with slots := [] } } (fun k => { k with poison := some 0 }))) (fun t =>
        (chan t 0).run.map (·.resend) == some [(0, 1, 101)]) = true := by decide
theorem test_write_ends_halt :
    instrTags (updPort 1 (fun p => { p with wtags := put none p.wtags 3 none, freedW := setBit p.freedW 3 true })
      (writeTag { busy with st := .halted } id)) 0 = false ∧
    after (exec (.writeResponse 1 (wrResp 3 0 0 0)) (writeTag { busy with st := .halted, pendCmd := .resume } id)) (fun t =>
      (chan t 0).st == .ready && (chan t 0).pc.addr == 0) = true ∧
    knownWord (writeTag { busy with st := .halted } id) (chan (writeTag { busy with st := .halted } id) 0) = some 0 ∧
    after (exec (.writeResponse 1 (wrResp 3 0 0 0)) (writeTag { busy with st := .halted, pendCmd := .skip } id)) (fun t =>
      (chan t 0).st == .ready && (chan t 0).pc.addr == 8) = true := by decide
def fenced (c : Channel → Channel) : State := withChan (c { busy with st := .waiting, waitOn := .fenced }) (runs (.signalF 9))
theorem test_fence_completes : Inv (fenced id) ∧
    (chan (endCcyc (fenced (fun c => { c with met := true, waitAt := some 90 }))) 0).st = .ready ∧
    (endCcyc (fenced (fun c => { c with met := true, waitAt := some 90 }))).ev.raised = [9] ∧
    (chan (endCcyc (fenced (fun c => { c with waitAt := some 100 }))) 0).pc.addr = 8 ∧
    (chan (tick (fenced id)) 0).met = true ∧ wtagCount (ccycEnd (fenced id)) 0 = 0 ∧
    (chan (tick (inState .aborting idle)) 0).st = .idle := by
  refine ⟨⟨?_, ?_, ?_, ?_⟩, ?_, ?_, ?_, ?_, ?_, ?_⟩ <;> decide +kernel
def badWrite : WrResp := { wrResp 3 0 0 0 with par := (wrResp 3 0 0 0).par + 1 }
theorem test_write_parity : wrParityOk badWrite = false ∧
    after (exec (.writeResponse 1 badWrite) writing) (fun t => bit t.irq.cause 3 && t.ports == writing.ports &&
      t.flog.entries.map (fun e => (e.kind, e.dir)) == [(7, dirWrite)]) = true := by decide

/-! Lines and events through a step. -/

/-- Line 5, owned by channel 0, has an edge in the present ccyc; its counter holds `n`. -/
def edgeNow (n : BitVec 4) (s : State) : State := { withLine n s with lines := [(5, { pin := true, cnt := n })] }
theorem test_edge_in_a_step : canon ({} : ReqLine) (edgeNow 15 idle).lines = true ∧ edgeSeen (edgeNow 15 idle) 5 = true ∧
    lineOwner (edgeNow 15 idle) 5 = some 0 ∧ (chan (ccycEnd (edgeNow 15 idle)) 0).st ≠ .waiting ∧
    (line (tick (edgeNow 14 idle)) 5).cnt = 15 ∧ (line (ccycEnd (edgeNow 15 idle)) 5).cnt = 15 ∧
    (line (tick (edgeNow 15 idle)) 5).use = .over ∧ bit (endCcyc (tick (edgeNow 15 idle))).irq.cause 24 = true := by decide +kernel
def edgeWaiter : State := withChan { busy with st := .waiting, waitOn := .line, waitArg := 5 } (edgeNow 3 idle)
theorem test_edge_ends_wait : Inv edgeWaiter ∧ (chan (ccycEnd edgeWaiter) 0).st = .waiting ∧ (line (tick edgeWaiter) 5).use = .wake ∧
    (chan (tick edgeWaiter) 0).st = .waiting ∧ (chan (endCcyc (tick edgeWaiter)) 0).st = .ready ∧
    (line (endCcyc (tick edgeWaiter)) 5).cnt = 3 := by
  refine ⟨⟨?_, ?_, ?_, ?_⟩, ?_, ?_, ?_, ?_, ?_⟩ <;> decide +kernel
/-- The EVT_OUT line 3 with this queue, last high in ccyc `k`. -/
def outLine (k : Nat) (q : List Nat) : State := { idle with ev := { lines := [(3, { last := some k, queue := q })] } }
theorem test_join_line : get {} (joinLine 3 9 (outLine 99 [])).ev.lines 3 = { last := some 101, queue := [] } ∧
    get {} (joinLine 3 9 (outLine 100 [])).ev.lines 3 = { last := some 100, queue := [9] } ∧
    get {} (joinLine 3 9 (outLine 100 [7])).ev.lines 3 = { last := some 100, queue := [7, 9] } ∧
    bit (joinLine 3 9 (outLine 99 [7, 7, 7])).irq.cause 25 = true ∧ (joinLine 3 9 (outLine 99 [7, 7, 7])).ev.ovf.getLsbD 3 = true := by decide +kernel
/-- Event 9 is raised, and routed to EVT_OUT line 3 and global event 2. -/
def routed : State := { idle with routes := { evt := [(9, 0x04033000)] }, ev := { raised := [9] } }
/-- Global event 5 arrives, which the input map routes to EVT_OUT line 3. -/
def globalIn : State := { idle with routes := { glob := [(5, 0x80030000)] }, ev := { gdelivered := 0x20 } }
theorem test_routed_event : bit (get (0 : Word) (routesNow routed).evt 9) 12 = true ∧ (deliverEvents routed).gl.mask = 4 ∧
    (endChans routed).ev.raised = [9] ∧ (endChans routed).ev.gdelivered = 0 ∧ routed.com.armed = false ∧
    get {} (endCcyc routed).ev.lines 3 = { last := some 101, queue := [] } ∧
    get {} (tick routed).ev.lines 3 = { last := some 101, queue := [] } ∧
    (endChans globalIn).ev.raised = [] ∧ (endChans globalIn).ev.gdelivered = 2 ^ 5 ∧
    get {} (endCcyc globalIn).ev.lines 3 = { last := some 101, queue := [] } ∧
    get {} (tick globalIn).ev.lines 3 = { last := some 101, queue := [] } := by decide +kernel

/-! The configuration port and pegs. -/

theorem test_port_start : (tick { idle with clk := { now := 103, ridge := 1000 } }).start.clk.ridge = 1001 ∧ (tick idle).start = idle.start := by
  decide +kernel
def rw (a : BitVec 18) (v : Word) (s : State) : Host.Outcome State Fault Refusal := exec (.registerWrite a v (accessParity true a v)) s
theorem test_register_clauses :
    after (rw 0x40 5 { idle with irq := { cause := 7, fresh := [2048] } }) (fun t => t.irq.cause == 3) = true ∧
    after (rw 0x43 5 idle) (fun t => t.irq.mask == 0x0000000503FF00FF) = true ∧
    after (rw 0x4005 0xFFFFFFFF idle) (fun t => get 0 t.shadow.req 5 == reqMask) = true ∧
    after (rw 0x5009 0xFFFFFFFF idle) (fun t => get 0 t.shadow.evt 9 == evtMask) = true ∧
    after (rw 0x1041 0x4003 idle) (fun t => get 0 t.pegSh 1 == 0x4003) = true ∧
    after (rw 0x1C28 0x3FF idle) (fun t => t.com.sel == 0x3FF) = true ∧
    after (rw 0x20002 0xC014 assignedIdle) (fun t => (chan t 0).prioSh == 5 && (chan t 0).pin && (chan t 0).autoResume) = true := by decide
theorem test_host_write_as_it_leaves :
    after (rw 0x20008 5 (withChan { busy with leftAt := some 100 } idle)) (fun t => (chan t 0).a.r0 == 5) = true ∧
    after (rw 0x20008 5 (withChan busy idle)) (fun t => (chan t 0).a == regsA) = true := by decide
def pegging (w : Nat) : State := { wrapping with cmd := { busy := true, token := 4, opcode := 10, job := .pegUpdate w 1 false } }
theorem test_peg_update_ends : (pegging 128).com.armed = false ∧
    after (exec .pegCommitWrap (pegging 128)) (fun t => t.cmd.done && t.dig.epoch == 1 && t.cmd.token == 4) = true ∧
    after (exec .pegCommitWrap (pegging 256)) (fun t => t.cmd.busy && t.dig.epoch == 0) = true := by decide

/-! Power, boot, commands. -/

theorem test_run_from_retain : after (exec .pwrTargetRun { dozing with pwr := { st := .retain, target := 2 } }) (fun t =>
      t.pwr.st == .waking && t.pwr.pswEn && t.cmd.busy && t.pwr.inWake) = true ∧
    quiet (endChans (entering 1)) = true ∧ coreOn (entering 1) = true ∧ (entering 2).test.tm = false := by decide +kernel
theorem test_porst_first : after (exec .porstN idle) (fun t => t.clk.porstAt == some 100 &&
      after (exec .sysrstN t) (fun u => u.pwr == t.pwr)) = true ∧ idle.clk.porstAt ≠ some idle.clk.now := by decide
def oneBurst : BootBurst := { addr := 0x1000, len := 2 }
theorem test_boot_requests :
    ((runReads (fun _ _ _ => rdBeat 0 0 0) 9 { rqCred := 1 } [oneBurst] []).1.filterMap (·.rq)).map (fun q => (q.addr, q.len)) = [(0x1000, 1)] ∧
    ((runWrites (fun _ _ => { data := 0, chk := 0, strb := 0, last := false, poison := false, par := false }) allOk 9 { rqCred := 1, wdCred := 2 }
      [oneBurst] []).1.filterMap (·.rq)).map (fun q => (q.addr, q.write)) = [(0x1000, true)] := by decide +kernel
theorem test_restructure_waits : ({ filled with dig := { users := [.roll] } } : State).dig.users ≠ [] ∧
    after (exec (.restructure 1 true 0 (.image noCopy) (.image noCopy) 0 none) { filled with dig := { users := [.roll] } }) (fun t =>
      t.cmd.busy && (restructureGoes { t with dig := {} }).cmd.code == 13) = true := by decide +kernel
theorem test_reserved_bits : accepts filled = true ∧
    after (exec (.park 1 0 1) filled) (fun t => t.cmd.code == 1) = true ∧ after (exec (.readLog 1 1 false 0x800000) filled) (fun t => t.cmd.code == 1) = true ∧
    after (exec (.restructure 1 false 0x40000000 (.image noCopy) (.image noCopy) 0 none) filled) (fun t => t.cmd.code == 1) = true ∧
    after (exec (.gateUpdate 1 3 0x80) filled) (fun t => t.cmd.code == 1) = true ∧
    after (exec (.pegUpdate 1 0 false false 1) filled) (fun t => t.cmd.code == 1) = true ∧
    after (exec (.selftest 1 0 1 0) filled) (fun t => t.cmd.code == 1) = true ∧
    after (exec (.rollcall 1 0 0 1) filled) (fun t => t.cmd.code == 1) = true ∧
    after (exec (.engineSoftReset 1 0 1) filled) (fun t => t.cmd.code == 1) = true := by decide
theorem test_commit_at_armed : after (exec (.commitAt 1 1001 7) { idle with com := { armed := true, t := 2000 } }) (fun t =>
    t.cmd.code == 15 && bit t.irq.cause 57 && t.com.t == 2000) = true := by decide

/-! Domains, gates, the cascade. -/

theorem test_vmon_between_edges : odd.mon.vmon = false ∧
    after (exec .vmonLowAssert odd) (fun t => !t.mon.vmon && (tick t).mon.vmon && bit (tick t).irq.cause 56) = true ∧
    after (exec .vmonLowDeassert { odd with mon := { vmonPin := true, vmonS1 := true, vmon := true } }) (fun t => t.mon.vmon && !(tick t).mon.vmon) = true ∧
    after (exec .vmonLowAssert { idle with pwr := { st := .off } }) (fun t => t.mon == { vmonPin := true }) = true := by decide +kernel
theorem test_gate_details : permBit good = 0 ∧
    (verdict [(0, 0x00001010), (2, 0x00001FE0)] good).deny = some 1 ∧
    (verdict [(0, 0x00001011), (2, 0x00001FE0)] good).deny = some 2 ∧
    (verdict [(0, 0x00001011), (2, 0x00001FE0), (128, 4)] good).deny = some 3 ∧
    (verdict [(176, 1)] good).deny = some 6 ∧ (verdict [(128, 4), (176, 1)] good).deny = some 7 ∧
    (verdict [(128, 4), (144, 2), (176, 1)] good).deny = none := by decide
theorem test_ring_beats : tileHeld 0xC0 = true ∧ tileHeld 0 = false ∧
    after (exec (.tileRegisterRead 3 0xC0) (tiled tileOn)) (fun t => t.gate.tx.map (·.kind) == [3] && t.gate.rx.map (·.kind) == [4]) = true ∧
    after (exec (.tileRegisterRead 3 0) (tiled tileOn)) (fun t => t.gate.tx == []) = true ∧
    after (exec (.gateUpdate 1 3 0) (gated tileOn idle)) (fun t => t.gate.tx.length == 46) = true ∧
    after (exec (.gateReport 3) (tiled { tileOn with reports := 1 })) (fun t => t.gate.rx.map (·.kind) == [7]) = true := by decide +kernel
def oddSending : State := { sending with clk := { now := 101, ridge := 1000 } }
theorem test_frame_waits : oddSending.gl.mask = 0 ∧
    after (exec (.frameSend true) oddSending) (fun t => t.gl.dnLink.start && t.gl.dnLink.txd == 0 && (tick t).gl.dnLink.txd == 0xD &&
      (tick t).gl.dnLink.freeAt == 85) = true := by decide +kernel
theorem test_bad_frames : badFrames 2 [5, 6] = 1 ∧ badFrames 1 [6] = 0 ∧
    badFrames 33 (0xD :: List.replicate 32 0) = 1 ∧ bodyBad (bodyOfNibbles (List.replicate 32 0)) = true := by decide +kernel

/-! ### The queue, the invariant -/

theorem test_queue : ({ idle with pending := [.evtSw 9] } : State).pending = .evtSw 9 :: [] ∧ idle.pending = [] ∧
    after (step { idle with pending := [.evtSw 9, .stop 0] }) (fun t => t.pending == [.stop 0] && t.ev.raised == [9]) = true ∧
    after (step idle) (fun t => t.clk.now == 101) = true := by decide +kernel
theorem test_invariant : Inv idle ∧ after (step idle) (fun _ => true) = true := by
  refine ⟨⟨?_, ?_, ?_, ?_⟩, ?_⟩ <;> decide +kernel
theorem test_store_frame : writesStore (.evtSw 9) = false ∧ after (exec (.evtSw 9) filled) (fun t => t.prog == filled.prog) = true := by
  decide
theorem test_reset_front : after (step (State.reset.withFetchWord 0 0)) (fun _ => true) = true := by decide

/-! ### Witnesses of the clauses on several channels, on what a ccyc takes back, and on the ports -/

theorem test_wait_goes_on : goesOn (withLine 1 (runs (.wait 0 false false false 0 0 5))) 0 8 = true := by decide
/-- The one beat of `staged` in its slot, with or without a detector. -/
def tapped (wt : Bool) : Run := { staged with geo := { geo with wt := wt } }
def tapSlot : Slot := { tag := 3, unit := 0, len := 1, launched := true }
theorem test_tap : (chan (moving (tapped true) idle) 0).run = some (tapped true) ∧ tapSlot.badSrc = false ∧
    beatState (tapped true) 0 = .whole (tapped true).staged 95 true ∧ inTime idle tapSlot 95 true = true ∧
    decodeBeat 7 (encodeChk 7) = .clean ∧ unitOf geo 7 = 0 ∧
    (chan (sendBeat 1 0 0 tapSlot (moving (tapped true) idle)) 0).tap = some 0 ∧
    (chan (sendBeat 1 0 0 tapSlot (moving (tapped false) idle)) 0).tap = none := by decide +kernel
theorem test_enable_ready : after (exec (.chStart 0) (inState .ready idle)) (fun t => (chan t 0).st == .ready && (chan t 0).enAt == some 100) = true := by
  decide

/-- Nine channels READY at a STOP and one RUNNING at a MOVE without a mover. -/
def nineAtStop : State :=
  { idle with
    prog := writeBytes (writeBytes [] 0 8 (encodeYabex .stop).toNat) 8 8 (encodeYabex mv).toNat
    chans := (List.range 9).map (fun k => (k, { busy with st := .ready, since := 99 })) ++ [(9, { busy with pc := { addr := 8 }, since := 99 })] }
/-- Nine channels READY at a MOVE. -/
def nineMoving : State := { runs mv with chans := (List.range 9).map (fun k => (k, { busy with st := .ready, since := 99 })), movers := [] }
theorem test_budgets : candidates nineAtStop = List.range 10 ∧ schedOn nineAtStop = true ∧ canon ({} : Channel) nineAtStop.chans = true ∧
    obtain nineAtStop (chan nineAtStop 8) = .word (encodeYabex .stop) ∧ (chan nineAtStop 9).st = .running ∧
    after (exec .channelSelect nineAtStop) (fun t => (chan t 7).st == .running && (chan t 8).st == .ready && (mover t 0).ch == some 9) = true := by
  decide +kernel
theorem test_mover_budget : candidates nineMoving = List.range 9 ∧ (candidates nineMoving).all (fun ch => atMover nineMoving (chan nineMoving ch)) = true ∧
    after (exec .channelSelect nineMoving) (fun t => (mover t 7).ch == some 7 && (chan t 8).st == .ready && (mover t 8).ch == none) = true := by
  decide +kernel
theorem test_victim_without_park : parkDue preempting 0 (chan preempting 0) = false := by decide +kernel

theorem test_one_decision : (port { asking with ports := [(0, { openPort with decidedAt := some 100 })] } 0).decidedAt = some (cycleStart asking openPort) ∧
    after (exec (.arbiterDecision 0) { asking with ports := [(0, { openPort with decidedAt := some 100, reqs := [req 0 0] })] })
      (fun t => (port t 0).grant == none && (port t 0).reqs == [req 0 0]) = true ∧
    (decidePort chaining 1 (port chaining 1) [req 5 0]).1 = some (.mover 0) ∧ (decidePort chaining 1 (port chaining 1) [req 5 0]).2 = some (req 5 0) ∧
    (chan chaining 0).cls = .bulk ∧ holderUrgent chaining (port chaining 1) = false ∧
    (decidePort urgentChain 1 (port urgentChain 1) [{ req 5 0 with ch := 0 }]).2.isSome = true := by decide
def paid (n : Nat) : State := { idle with clk := { now := n }, ports := [(0, { openPort with ratio := true, rqRet := 1, wdUsed := 1 })] }
theorem test_begin_credits : cycleBegins (paid 100) 0 = true ∧ cycleBegins (paid 101) 0 = false ∧
    (port (beginCredits (paid 100)) 0).rqCred = 9 ∧ (port (beginCredits (paid 100)) 0).wdCred = 15 ∧ beginCredits (paid 101) = paid 101 := by
  decide +kernel
def owingRead : State := { owing with ports := [(0, { (port owing 0) with grant := some (req 1 0) })] }
theorem test_read_beside_burst : (slotOf owingRead 0 3).map (·.tag) = some 3 ∧ portsSilent owingRead = false ∧
    (port (beginCycle 0 owingRead) 0).rqOut = some (rqOf (chan owingRead 0) (req 1 0)) ∧
    (port (beginCycle 0 owingRead) 0).wdOut.map (·.last) = some true ∧ (port (beginCycle 0 owingRead) 0).wdUsed = 1 := by decide +kernel
theorem test_quiesce_shows_no_pend : after (exec (.readIssue (.mover 0) 5) (moving reserved shut)) (fun t => !(chan t 0).haltPend) = true := by decide
def abortingRead : State := { reading with chans := [(0, { busy with st := .aborting })] }
theorem test_orphan_beat : after (exec (.readResponseBeat 0 { rdBeat 5 0 0 with data := 1 }) (withTag { readOut with orphan := true })) (fun t =>
      t.mon.eccCnt == 1 && (port t 0).rtags == [] && t.flog == idle.flog && t.chans == reading.chans) = true ∧
    after (exec (.readResponseBeat 0 { rdBeat 5 0 0 with data := 1 }) abortingRead) (fun t => t.mon.eccCnt == 1 && t.chans == abortingRead.chans) = true ∧
    after (exec (.readResponseBeat 0 { rdBeat 5 0 0 with data := 7 }) abortingRead) (fun t => t.mon == idle.mon) = true := by decide +kernel
/-- Channel 0 has halted in this ccyc with a fault of port 2, and a write tag of port 1 of it is outstanding. -/
def latchedLate : State :=
  writeTag { busy with st := .halted, haltAt := 100, latched := some { cause := .bus, addr := 0, dir := dirRead, resp := 1, port := 2 } } (fun k => { k with cur := false })
theorem test_first_by_rank : faultRank (writeFault 1 { writeOut with cur := false } (wrResp 3 2 1 0) true) < faultRank { cause := .bus, addr := 0, dir := dirRead, resp := 1, port := 2 } ∧
    after (exec (.writeResponse 1 (wrResp 3 2 1 0)) latchedLate) (fun t => (chan t 0).faultInfo.cause == .late && (chan t 0).faultInfo.port == 1 &&
      (chan t 0).faultAddr == 0x60000000) = true ∧
    (chan (writeTag { busy with st := .halted } (fun k => { k with cur := false })) 0).latched = none := by decide
def edgeAt103 : State := { edgeNow 14 idle with clk := { now := 103, ridge := 1000 } }
theorem test_edge_is_read : cfgEdge (tick edgeAt103) = true ∧ (line (atStart (tick edgeAt103)) 5).cnt = 15 ∧
    (line (ccycEnd edgeAt103) 5).cnt = 14 := by decide +kernel
theorem test_event_before_deadline :
    let s : State := withChan { (chan evtWaiter 0) with dlArmed := true, dl := 2000 } evtWaiter
    deadlineDue s (chan s 0) = false ∧ (chan (endCcyc s) 0).st = .ready ∧ s.cmd.job = .none := by decide +kernel

theorem test_entry_ends : quiet (endCore (entering 1)) = true ∧ quiet (endCore (entering 2)) = true ∧ quiet (endCore (entering 3)) = true := by
  decide +kernel
def ackedOdd : State := { wakingAt 101 with pwr := { (wakingAt 101).pwr with ackIn := some (0, ⟨none, 0, 0⟩) } }
theorem test_ack_between_edges :
    after (exec (.corePswAck 0 ⟨none, 0, 0⟩) (wakingAt 101)) (fun t => t == ackedOdd) = true ∧ ackedOdd.pd.pin = ackedOdd.pd.req ∧
    (tick ackedOdd).pwr.st = .run ∧ (tick ackedOdd).pwr.ackIn = none ∧ (tick ackedOdd).cmd.busy = false := by decide +kernel
theorem test_boot_fall_back : loadOk newerCopy badCopy = false ∧
    bootPlan noCopy goodCopy noCopy badCopy (4, 0) (0, 0) = { image := none, loads := [true], ra := (4, 0), rb := (12, 0), other := true } ∧
    bootPlan goodCopy goodCopy badCopy badCopy (0, 0) (0, 0) = { image := none, loads := [false, true], ra := (12, 0), rb := (12, 0), other := true } ∧
    bootPlan goodCopy newerCopy badCopy badCopy (0, 0) (0, 0) = { image := none, loads := [true, false], ra := (12, 0), rb := (12, 0), other := true } := by
  decide +kernel
def lostBurst : State := { idle with boot := { rtags := 1, rqCred := 32, wdCred := 64 } }
theorem test_boot_strays : bootTagOut lostBurst false 0 = true ∧ bootTagOut lostBurst true 0 = false ∧ bootTagOut lostBurst false 9 = false ∧
    (bootStray (.response false 0 0) lostBurst).boot.rtags = 0 ∧
    (bootStray (.response true 0 0) lostBurst).flog.entries.map (fun e => (e.kind, e.tag)) = [(6, 0)] ∧
    bit (bootStray (.response false 9 0) lostBurst).irq.cause 2 = true ∧
    (bootStray (.parity false 0) lostBurst).flog.entries.map (fun e => (e.kind, e.detail)) = [(7, 0)] ∧
    (bootStray (.parity false 9) lostBurst).flog.entries.map (fun e => (e.kind, e.detail)) = [(7, 1)] ∧
    bit (bootStray (.credit false) lostBurst).irq.cause 1 = true ∧ (bootStray (.credit true) lostBurst).boot.wdCred = 64 ∧
    (bootStray (.credit true) { lostBurst with boot := {} }).boot.wdCred = 1 := by decide +kernel
theorem test_load_strays :
    after (exec (.loadOptionArea 1 false 0x40000 32 0 (.strays none [.response false 9 0])) filled) (fun t => t.cmd.done && bit t.irq.cause 2) = true ∧
    after (exec (.loadOptionArea 1 false 0x40000 32 0 (.strays (some 0) [])) filled) (fun t => t.cmd.busy) = true ∧ filled.cfg.wrote = [] := by
  decide +kernel
theorem test_park_of_this_ccyc :
    let s := withChan { busy with st := .waiting, waitOn := .event, waitArg := 7, waitAt := some 100 } idle
    after (exec (.park 1 0 0) s) (fun t => (chan t 0).parkPend && (chan t 0).st == .waiting && t.cmd.busy) = true ∧
    (chan (inState .waiting idle) 0).waitAt ≠ some 100 ∧ unmoved (withLine 3 stopped) 0 = true := by decide
/-- Channel 0 was READY, was selected in this ccyc and has halted in it. -/
def ranAndHalted : State := { inState .halted idle with
  chans := [(0, { busy with st := .halted, haltAt := 100, pc := { addr := 16 } })]
  before := [(0, some { chan := { busy with st := .ready, pc := { addr := 8 } }, mover := none })] }
theorem test_park_before_the_selection : (earlier ranAndHalted 0).map (·.st) = some .ready ∧ earlier (inState .halted idle) 0 = none ∧
    after (exec (.park 1 0 0) ranAndHalted) (fun t => (chan t 0).st == .parked && (chan t 0).pc.addr == 8 && t.cmd.busy) = true := by decide
theorem test_rehash_of_an_earlier_round :
    after (exec .rehashDone (hashing .oldRoll .none)) (fun t => !t.roll.fresh && t.dig.users == [.digest]) = true ∧
    exec .digestRecUpdate (hashing .roll .none) = .next (hashing .roll .none) ∧
    after (exec (.rollcall 1 7 8 0) { idle with dig := { users := [.roll] } }) (fun t => t.dig.users == [.oldRoll, .roll]) = true ∧
    after (exec (.rollcall 1 7 4194305 0) idle) (fun t => t.cmd.code == 2 && t.roll == idle.roll) = true := by
  refine ⟨by decide +kernel, rfl, by decide +kernel, by decide +kernel⟩
def pinned : State := { dozing with pwr := { dozing.pwr with dozePins := [(9, some 3)] } }
theorem test_domains_in_doze : get none pinned.pwr.dozePins 9 = some 3 ∧ get none pinned.pwr.dozePins 8 = none ∧
    after (exec (.pdReqRise 9) pinned) (fun t => t.pd.nackWant.getLsbD 9 && t.pd.nackCh == 3 && bit t.irq.cause 51 && t.pd.closed == 0) = true ∧
    after (exec (.pdReqRise 8) pinned) (fun t => t.pd.closed.getLsbD 8 && t.pd.ackWant.getLsbD 8) = true ∧
    after (exec (.pdReqFall 8) { pinned with pd := { req := 0x100, closed := 0x100 } }) (fun t => t.pd.closed == 0 && t.pwr == pinned.pwr) = true := by
  decide +kernel
def heldRead : State :=
  { tiled { tileOn with en := false, drained := true, reports := 8 } with
    gate := { (tiled tileOn).gate with held := some (3, 0xC1, none), recs := [(3, {})] } }
theorem test_held_read : heldRead.gate.held = some ((3 : TileNo).toNat, (0xC1 : BitVec 9).toNat, none) ∧ tileHeld 0xC1 = true ∧
    present heldRead 3 = true ∧ (tile heldRead 3).reports &&& 48 = 0 ∧ (releaseHeld heldRead).gate.held = none ∧
    (releaseHeld heldRead).cfg.ans.isSome = true ∧ (tile (releaseHeld heldRead) 3).reports = 0 ∧ (tileRec (releaseHeld heldRead) 3).drained = true := by
  decide +kernel
theorem test_check_waits : tickNow member < 51 ∧
    (checkGevts 999 { member with gl := { member.gl with rxGevt := [(51, 1000, 4)] } }).gl.rxGevt.length = 1 := by decide
theorem test_scan : idle.test.scanEn = false ∧
    after (exec (.wpIntest 5) { underTest with test := { underTest.test with scanEn := false } }) (fun t => t.test.wir == 5 && t.test.wpi == 5 &&
      t.chans == idle.chans) = true ∧
    coreIsOff { underTest with pwr := { st := .off } } = true ∧ coreIsOff underTest = false ∧
    after (exec (.testMode ⟨false, true, false⟩) { underTest with pwr := { st := .off }, irq := { out := 5 } }) (fun t =>
      t.irq.out == 0 && (port t 0) == {} && !t.cfg.ack) = true := by decide +kernel

/-! ### The longest evaluations -/

theorem test_good_copy_hash : imgHash goodCopy.bytes = trailerOfCopy := by decide +kernel
theorem test_good_copy : validate { image := goodCopy } none = (0, 0) ∧ loadOk goodCopy goodCopy = true := by decide +kernel
theorem test_newer_copy : imgSeq goodCopy.bytes < imgSeq newerCopy.bytes ∧ loadOk newerCopy goodCopy = true := by decide +kernel
theorem test_restructure_loads :
    after (exec (.restructure 1 true 0 (.image goodCopy) (.image goodCopy) 0 none) filled) (fun t =>
      t.cmd.done && t.bs.active == 1 && t.bs.seq == 7 && t.dig.epoch == 9 && t.wins.length == 1 && (port t 0).used) = true := by
  decide +kernel
theorem test_read_beat_clauses : unmoved reading 0 = true ∧
    decodeBeat 1 (encodeChk 0) = .corrected 0 (encodeChk 0) ∧ decodeBeat 7 (encodeChk 0) = .uncorrectable ∧
    after (exec (.readResponseBeat 0 { rdBeat 5 0 0 with data := 1 }) reading) (fun t => t.mon.eccCnt == 1 && t.mon.eccSrc == 0 &&
      (chan t 0).run.map (fun r => r.staged.map (fun st => (st.data, st.late))) == some [(0, true)]) = true ∧
    after (exec (.readResponseBeat 0 { rdBeat 5 0 0 with data := 7 }) reading) (fun t => (chan t 0).haltPend &&
      (chan t 0).held.map (fun h => (h.cause, h.detail)) == some (.ecc, 1)) = true := by decide +kernel

end Sys2Proof.Tests
end

section
/-! PROOFS. The identity registers at the configuration port (00 R5 to R7), over the rules of a host read of a register
held in AO (15 R374, R377). -/

namespace Sys2Proof.Machine

/-! ### An answer of the port -/

theorem now_mod_four_of_portReady {s : State} (h : portReady s = true) : s.clk.now % 4 = 0 := by
  simp only [portReady, cfgEdge, Bool.and_eq_true, beq_iff_eq] at h
  obtain ⟨⟨⟨hedge, -⟩, -⟩, -⟩ := h
  exact hedge

/-- An access served at an edge of CFG_CLK is answered in the cycle that begins four ccyc later. -/
theorem hostRead_ans {s : State} (v : Word) (h : s.clk.now % 4 = 0) :
    (hostRead v s).cfg.ans = some { due := s.clk.now + 4, data := v, err := false } := by
  have hdue : 4 * (s.clk.now / 4) + 4 = s.clk.now + 4 := by omega
  simp [hostRead, answer, hdue]

/-! ### A read -/

/-- CAPTURE_READ with good parity is performed where the port can serve it (15 R374, R375). -/
theorem exec_captureRead_of_portReady {s : State} {a : BitVec 18} (d : Word) (hon : s.pwr.st ≠ .off)
    (hready : portReady s = true) :
    exec (.captureRead a ⟨d, accessParity false a d⟩) s = .next (doRead a.toNat (answer 0 false s)) :=
  calc exec (.captureRead a ⟨d, accessParity false a d⟩) s
      = .next (hostAccess (.captureRead a ⟨d, accessParity false a d⟩)
          (effCaptureRead a ⟨d, accessParity false a d⟩) s) := rfl
    _ = .next (effCaptureRead a ⟨d, accessParity false a d⟩ (answer 0 false s)) := by
        rw [hostAccess_ready _ _ s hon hready]
    _ = .next (doRead a.toNat (answer 0 false s)) := by simp [effCaptureRead]

theorem lt_of_heldInAo {w : Nat} (h : heldInAo w = true) : w < 0x30000 := by
  simp only [heldInAo, Bool.or_eq_true, Bool.and_eq_true, decide_eq_true_eq] at h
  omega

/-- A read of a register held in AO is performed whatever the state of CORE. -/
theorem doRead_of_heldInAo {w : Nat} (h : heldInAo w = true) (s : State) :
    doRead w s = hostRead (readReg (atStart s) w) { s with cfg := capture s.cfg (atStart s) w } := by
  simp [doRead, h, Nat.not_le.mpr (lt_of_heldInAo h)]

/-- Such a read of a register held in AO: the answer is the register's content when the cycle began, and all but the port
stands as it was. -/
theorem captureRead_of_heldInAo {s : State} {a : BitVec 18} (d : Word) (hon : s.pwr.st ≠ .off)
    (hready : portReady s = true) (hao : heldInAo a.toNat = true) :
    ∃ t, exec (.captureRead a ⟨d, accessParity false a d⟩) s = .next t ∧
      t.cfg.ans = some { due := s.clk.now + 4, data := readReg (atStart s) a.toNat, err := false } ∧
      { t with cfg := s.cfg } = s := by
  refine ⟨_, exec_captureRead_of_portReady d hon hready, ?_, ?_⟩
  · have hedge : s.clk.now % 4 = 0 := now_mod_four_of_portReady hready
    rw [doRead_of_heldInAo hao]
    exact hostRead_ans _ hedge
  · rw [doRead_of_heldInAo hao]
    rfl

/-! ### The identity registers -/

@[simp] theorem readReg_ipId (s : State) : readReg s 0 = 0x5C400102 := rfl
@[simp] theorem readReg_gennalId (s : State) : readReg s 1 = 0x00000120 := rfl

/-- Settles O36: both registers are held in AO, so that the port reads them in every power state, and their content is the
same in every state of the block. -/
theorem identityRegistersAreConstant : Obligations.IdentityRegistersAreConstant := by
  intro s a d ha hon hready
  have hao : heldInAo a.toNat = true := by
    obtain rfl | rfl := ha <;> decide
  have hval : readReg (atStart s) a.toNat = if a = 0 then 0x5C400102 else 0x00000120 := by
    obtain rfl | rfl := ha
    · exact readReg_ipId _
    · exact readReg_gennalId _
  rw [← hval]
  exact captureRead_of_heldInAo d hon hready hao

end Sys2Proof.Machine
end

section
/-! PROOFS. The two equations of a step, one for each shape of the queue: the model's queue stands for what the block is given
to do (log entries 1, 5). -/

namespace Sys2Proof.Machine

theorem step_of_pending_cons {s : State} {c : Instr} {rest : List Instr} (h : s.pending = c :: rest) :
    step s = exec c { s with pending := rest } := by
  rw [step, h]

theorem step_of_pending_nil {s : State} (h : s.pending = []) : step s = .next (tick s) := by
  rw [step, h]

/-- Settles O1: the two shapes of the queue, each by its equation. -/
theorem stepRunsTheFrontCommand : Obligations.StepRunsTheFrontCommand :=
  ⟨fun _ _ _ => step_of_pending_cons, fun _ => step_of_pending_nil⟩

end Sys2Proof.Machine
end

section
/-! PROOFS. Responses and credits that a port drops (02 R58, R61), over what a fault-log entry with its interrupt cause does. -/

namespace Sys2Proof.Machine

open Sys2Proof.Safety

/-! ### Reports: an entry of the fault log and a cause -/

theorem getLsbD_setBit_self {n i : Nat} (x : BitVec n) (h : i < n) : (setBit x i true).getLsbD i = true := by
  simp only [setBit, if_true, BitVec.getLsbD_or, BitVec.getLsbD_ofNat, h, decide_true, Nat.testBit_two_pow_self,
    Bool.and_self, Bool.or_true]

theorem getLsbD_setCause_self (s : State) {k : Nat} (h : k < 64) : (setCause k s).irq.cause.getLsbD k = true :=
  getLsbD_setBit_self _ h

theorem Keeps.keepsMemory {s t : State} (h : Keeps s t) : KeepsMemory s t :=
  ⟨fun a => by rw [h.prog], fun a => by rw [h.buf]⟩

/-- An entry is written into the fault log, where it has room, and its cause is set. -/
def report (k : Nat) (e : LogEntry) (s : State) : State := setCause k (logFault e s)

@[simp] theorem report_chans (k : Nat) (e : LogEntry) (s : State) : (report k e s).chans = s.chans := by simp [report]
@[simp] theorem report_ports (k : Nat) (e : LogEntry) (s : State) : (report k e s).ports = s.ports := by simp [report]
@[simp] theorem report_movers (k : Nat) (e : LogEntry) (s : State) : (report k e s).movers = s.movers := by simp [report]
@[simp] theorem port_report (k : Nat) (e : LogEntry) (s : State) (n : Nat) : port (report k e s) n = port s n := by simp [port]

theorem report_cause (e : LogEntry) (s : State) {k : Nat} (h : k < 64) : (report k e s).irq.cause.getLsbD k = true :=
  getLsbD_setCause_self _ h

theorem keeps_report (k : Nat) (e : LogEntry) (s : State) : Keeps s (report k e s) :=
  (keeps_logFault e s).trans (keeps_setCause k _)

/-- Where the log has room a report adds its entry, with the present time (09 R243). -/
theorem report_room (k : Nat) (e : LogEntry) (s : State) (h : s.flog.entries.length < 64) :
    (report k e s).flog.entries.length = s.flog.entries.length + 1 ∧
    { e with time := fld s.clk.ridge 0 32 } ∈ (report k e s).flog.entries := logFault_room e s h

theorem logUnknown_eq_report (n : Nat) (dir : BitVec 2) (tag : Tag) (resp : BitVec 3) (s : State) :
    logUnknown n dir tag resp s =
      report 2 { kind := 6, port := BitVec.ofNat 3 n, dir := dir, tag := tag, resp := resp } s := rfl

theorem logParity_eq_report (n : Nat) (dir : BitVec 2) (tag : Tag) (ch : Option Nat) (s : State) :
    logParity n dir tag ch s =
      report 3 { kind := 7, port := BitVec.ofNat 3 n, dir := dir, tag := tag, detail := if ch.isSome then 0 else 1,
                 ch := BitVec.ofNat 10 (ch.getD 0) } s := rfl

/-! ### Responses whose tag is not outstanding (02 R61) -/

/-- What a response with an unknown tag leaves. -/
theorem logUnknown_spec (n : PortNo) (dir : BitVec 2) (tag : Tag) (resp : BitVec 3) (s : State) :
    (logUnknown n.toNat dir tag resp s).irq.cause.getLsbD 2 = true ∧
    (logUnknown n.toNat dir tag resp s).chans = s.chans ∧ (logUnknown n.toNat dir tag resp s).ports = s.ports ∧
    (logUnknown n.toNat dir tag resp s).movers = s.movers ∧ KeepsMemory s (logUnknown n.toNat dir tag resp s) ∧
    (s.flog.entries.length < 64 →
      (logUnknown n.toNat dir tag resp s).flog.entries.length = s.flog.entries.length + 1 ∧
      ∃ e ∈ (logUnknown n.toNat dir tag resp s).flog.entries, e.kind = 6 ∧ e.port = n ∧ e.dir = dir ∧ e.tag = tag) := by
  rw [logUnknown_eq_report]
  refine ⟨report_cause _ _ (by decide), report_chans _ _ _, report_ports _ _ _, report_movers _ _ _,
    (keeps_report _ _ _).keepsMemory, fun hroom => ?_⟩
  obtain ⟨hlen, hmem⟩ := report_room 2 _ s hroom
  exact ⟨hlen, _, hmem, rfl, by simp, rfl, rfl⟩

theorem exec_readResponseBeat_unknown {s : State} {n : PortNo} {b : RdBeat} (hon : coreOn s = true)
    (hen : (port s n.toNat).en = true) (hpar : rdParityOk b = true) (htag : get none (port s n.toNat).rtags b.tag.toNat = none) :
    exec (.readResponseBeat n b) s = .next (logUnknown n.toNat dirRead b.tag b.resp s) := by
  simp [exec, execReadResponseBeat, hon, hen, hpar, htag]

theorem exec_writeResponse_unknown {s : State} {n : PortNo} {w : WrResp} (hon : coreOn s = true)
    (hen : (port s n.toNat).en = true) (hpar : wrParityOk w = true) (htag : get none (port s n.toNat).wtags w.tag.toNat = none) :
    exec (.writeResponse n w) s = .next (logUnknown n.toNat dirWrite w.tag w.resp s) := by
  simp [exec, execWriteResponse, hon, hen, hpar, htag]

/-- Settles O31: a response of either direction is answered by the same report, which touches no channel and no port. -/
theorem unknownTagsAreDropped : Obligations.UnknownTagsAreDropped := by
  intro s n hon hen
  exact ⟨fun b hpar htag => ⟨_, exec_readResponseBeat_unknown hon hen hpar htag, logUnknown_spec _ _ _ _ _⟩,
    fun w hpar htag => ⟨_, exec_writeResponse_unknown hon hen hpar htag, logUnknown_spec _ _ _ _ _⟩⟩

/-! ### Credits (02 R56 to R58) -/

/-- The counter that a credit pulse names holds its maximum, after what the present port cycle uses (02 R58). -/
def creditFull (wd : Bool) (p : Port) : Bool := if wd then decide (64 ≤ nextWd p) else decide (32 ≤ nextRq p)

/-- A port whose counter has been returned one credit in the present port cycle. -/
def creditReturned (wd : Bool) (p : Port) : Port :=
  if wd then { p with wdRet := p.wdRet + 1 } else { p with rqRet := p.rqRet + 1 }

/-- A pulse at a running port is dropped with a report, or returned (02 R58). -/
theorem exec_creditReturn_eq {s : State} {n : PortNo} (wd : Bool) (hon : coreOn s = true) (hen : (port s n.toNat).en = true) :
    exec (.creditReturn n wd) s = .next (
      if creditFull wd (port s n.toNat) then report 1 { kind := 5, port := n, detail := if wd then 1 else 0 } s
      else setPort n.toNat (creditReturned wd (port s n.toNat)) s) := by
  have hruns : (!(port s n.toNat).en || !coreOn s) = false := by rw [hen, hon]; rfl
  simp only [exec, execCreditReturn, hruns, Bool.false_eq_true, if_false]
  cases wd <;> rfl

theorem exec_creditReturn {s : State} {n : PortNo} {wd : Bool} (hon : coreOn s = true) (hen : (port s n.toNat).en = true)
    (hroom : creditFull wd (port s n.toNat) = false) :
    exec (.creditReturn n wd) s = .next (setPort n.toNat (creditReturned wd (port s n.toNat)) s) := by
  rw [exec_creditReturn_eq wd hon hen, hroom]
  rfl

theorem exec_creditReturn_full {s : State} {n : PortNo} {wd : Bool} (hon : coreOn s = true) (hen : (port s n.toNat).en = true)
    (hfull : creditFull wd (port s n.toNat) = true) :
    exec (.creditReturn n wd) s = .next (report 1 { kind := 5, port := n, detail := if wd then 1 else 0 } s) := by
  rw [exec_creditReturn_eq wd hon hen, hfull]
  rfl

/-- The credit counts from the next port cycle on, where the present one uses no more than it has (02 R56). -/
theorem newCredits_wdReturned {p : Port} (h : p.wdUsed ≤ p.wdCred + p.wdRet) :
    (newCredits (creditReturned true p)).wdCred = (newCredits p).wdCred + 1 := by
  simp only [newCredits, nextWd, creditReturned, if_true]
  omega

theorem newCredits_rqReturned {p : Port} (h : p.rqUsed ≤ p.rqCred + p.rqRet) :
    (newCredits (creditReturned false p)).rqCred = (newCredits p).rqCred + 1 := by
  simp only [newCredits, nextRq, creditReturned, Bool.false_eq_true, if_false]
  omega

theorem onlyPort_setPort (n : Nat) (v : Port) (s : State) : OnlyPort n s (setPort n v s) :=
  ⟨fun _ hk => port_setPort_ne s v hk, rfl⟩

/-- Settles O32: below its maximum the counter is returned the credit; at its maximum the pulse is reported and dropped. -/
theorem creditsStopAtTheirMaximum : Obligations.CreditsStopAtTheirMaximum := by
  intro s n wd hon hen
  refine ⟨fun hroom => ?_, fun hfull => ?_⟩
  · have hnot : creditFull wd (port s n.toNat) = false := by
      cases wd with
      | false => exact decide_eq_false (Nat.not_le.2 hroom)
      | true => exact decide_eq_false (Nat.not_le.2 hroom)
    refine ⟨_, exec_creditReturn hon hen hnot, onlyPort_setPort _ _ _, port_setPort_self _ _ _, ?_, ?_⟩
    · rintro rfl hused
      rw [port_setPort_self]
      exact newCredits_wdReturned hused
    · rintro rfl hused
      rw [port_setPort_self]
      exact newCredits_rqReturned hused
  · have hmax : creditFull wd (port s n.toNat) = true := by
      cases wd with
      | false => exact decide_eq_true hfull
      | true => exact decide_eq_true hfull
    refine ⟨_, exec_creditReturn_full hon hen hmax, report_ports _ _ _, report_chans _ _ _, report_cause _ _ (by decide),
      (keeps_report _ _ _).keepsMemory, fun hlen => ?_⟩
    obtain ⟨-, hmem⟩ := report_room 1 _ s hlen
    exact ⟨_, hmem, rfl, rfl, rfl⟩

end Sys2Proof.Machine
end

section
/-! PROOFS. What the steps of a read beat do (02 R46, R52, R62; 06 R163 to R165, R178 to R180; 09 R226, R231): one rule for each,
from the tag that counts the beat to the fault that it raises. -/

namespace Sys2Proof.Machine

open Sys2Proof.Safety

/-! ### Tables -/

/-- Writing back what a listed key holds changes nothing. -/
theorem put_get_self {α : Type} [DecidableEq α] {d : α} (t : Table α) (i : Nat) (h : get d t i ≠ d) :
    put d t i (get d t i) = t := by
  induction t with
  | nil => exact absurd rfl h
  | cons e r ih =>
    obtain ⟨k, w⟩ := e
    by_cases hlt : i < k
    · exact absurd (by simp [get, hlt]) h
    · by_cases heq : i = k
      · subst heq
        simp_all [get, put]
      · have hr : get d ((k, w) :: r) i = get d r i := by simp [get, hlt, heq]
        rw [hr] at h ⊢
        simp [put, hlt, heq, ih h]

/-- A change of every listed value that leaves `none` alone is seen by every read. -/
theorem get_map_optionMap {α : Type} (f : α → α) (t : Table (Option α)) (i : Nat) :
    get none (t.map (fun e => (e.1, e.2.map f))) i = (get none t i).map f := by
  induction t with
  | nil => rfl
  | cons e r ih =>
    simp only [List.map_cons, get, ih]
    split
    · rfl
    · split <;> rfl

/-- A channel that is not as at reset is written back without effect. -/
theorem setChan_chan_self {s : State} {ch : Nat} (h : (chan s ch).st ≠ .idle) : setChan ch (chan s ch) s = s := by
  have hne : get ({} : Channel) s.chans ch ≠ {} := fun he => h (congrArg Channel.st he)
  have hput : put ({} : Channel) s.chans ch (chan s ch) = s.chans := put_get_self _ _ hne
  rw [setChan, hput]

/-! ### Only the channels -/

/-- Nothing but the list of channels has changed. -/
def OnlyChans (s t : State) : Prop := ∃ cs, t = { s with chans := cs }

section
variable {s t u : State}

theorem OnlyChans.refl (s : State) : OnlyChans s s := ⟨s.chans, rfl⟩

theorem OnlyChans.trans (h : OnlyChans s t) (k : OnlyChans t u) : OnlyChans s u := by
  obtain ⟨_, rfl⟩ := h
  obtain ⟨cs, rfl⟩ := k
  exact ⟨cs, rfl⟩

theorem OnlyChans.port (h : OnlyChans s t) (n : Nat) : port t n = Machine.port s n := by obtain ⟨_, rfl⟩ := h; rfl
theorem OnlyChans.mon (h : OnlyChans s t) : t.mon = s.mon := by obtain ⟨_, rfl⟩ := h; rfl
theorem OnlyChans.irq (h : OnlyChans s t) : t.irq = s.irq := by obtain ⟨_, rfl⟩ := h; rfl
theorem OnlyChans.keepsMemory (h : OnlyChans s t) : KeepsMemory s t := by
  obtain ⟨_, rfl⟩ := h
  exact ⟨fun _ => rfl, fun _ => rfl⟩

end

theorem onlyChans_updChan (ch : Nat) (f : Channel → Channel) (s : State) : OnlyChans s (updChan ch f s) := ⟨_, rfl⟩

/-! ### The ccyc from which staged beats can be used (06 R165) -/

/-- Nothing has changed but the ccyc from which beats in staging can be used. -/
structure Rescheduled (s t : State) : Prop where
  onlyChans : OnlyChans s t
  sansReady : ∀ j, sansReady (chan t j) = sansReady (chan s j)

theorem Rescheduled.refl (s : State) : Rescheduled s s := ⟨.refl s, fun _ => rfl⟩

theorem Rescheduled.trans {s t u : State} (h : Rescheduled s t) (k : Rescheduled t u) : Rescheduled s u :=
  ⟨h.onlyChans.trans k.onlyChans, fun j => (k.sansReady j).trans (h.sansReady j)⟩

theorem Rescheduled.foldl {β : Type} (f : State → β → State) (h : ∀ s b, Rescheduled s (f s b)) (l : List β) (s : State) :
    Rescheduled s (l.foldl f s) := by
  induction l generalizing s with
  | nil => exact .refl s
  | cons b r ih => exact (h s b).trans (ih _)

/-- A change of a channel that `sansReady` does not see. -/
theorem rescheduled_updChan {f : Channel → Channel} (h : ∀ c, Safety.sansReady (f c) = Safety.sansReady c) (ch : Nat)
    (s : State) : Rescheduled s (updChan ch f s) := by
  refine ⟨onlyChans_updChan ch f s, fun j => ?_⟩
  by_cases hj : j = ch
  · rw [hj, chan_updChan_self, h]
  · rw [chan_updChan_ne _ _ hj]

theorem rescheduled_schedule (s : State) : Rescheduled s (schedule s) := by
  refine Rescheduled.foldl _ (fun t ch => rescheduled_updChan (fun c => ?_) ch t) _ s
  cases hr : c.run with
  | none => simp [Safety.sansReady, hr]
  | some r =>
    simp only [Safety.sansReady, hr, Option.map_some, List.map_map]
    congr 3
    refine List.map_congr_left fun st _ => ?_
    simp only [Function.comp]
    split <;> rfl

/-- A beat as it lands in staging in ccyc `now`, but for the ccyc from which it can be used. -/
def landedBeat (now : Nat) (t : RTag) (tag : Tag) (beat : Nat) (data : BitVec 256) (chk : BitVec 19) (bad : Bool) : Staged :=
  { beat := beat, lo := t.lo, hi := t.hi, s := t.s, data := data, chk := chk, time := now, late := t.late, ready := 0,
    bad := bad, tag := tag }

/-- A run with one more beat in staging. -/
def withStaged (st : Staged) (r : Run) : Run := { r with staged := r.staged ++ [st] }

/-- Staging a beat adds it to the run of its channel (06 R163). -/
theorem stage_spec (ch : Nat) (t : RTag) (tag : Tag) (beat : Nat) (data : BitVec 256) (chk : BitVec 19) (bad : Bool) (s : State) :
    OnlyChans s (stage ch t tag beat data chk bad s) ∧
    sansReady (chan (stage ch t tag beat data chk bad s) ch) = sansReady { chan s ch with
      run := (chan s ch).run.map (withStaged (landedBeat s.clk.now t tag beat data chk bad)) } ∧
    ∀ j, j ≠ ch → sansReady (chan (stage ch t tag beat data chk bad s) j) = sansReady (chan s j) := by
  unfold stage
  refine ⟨(onlyChans_updChan _ _ _).trans (rescheduled_schedule _).onlyChans, ?_, fun j hj => ?_⟩
  · rw [(rescheduled_schedule _).sansReady, chan_updChan_self]
    cases hr : (chan s ch).run <;> simp [sansReady, withStaged, landedBeat]
  · rw [(rescheduled_schedule _).sansReady, chan_updChan_ne _ _ hj]

/-! ### The tag counts its beat (02 R46) -/

section
variable (n : Nat) (b : RdBeat) (k : RTag) (s : State)

@[simp] theorem chan_countBeat (j : Nat) : chan (countBeat n b k s) j = chan s j := rfl
@[simp] theorem countBeat_clk : (countBeat n b k s).clk = s.clk := rfl
@[simp] theorem countBeat_mon : (countBeat n b k s).mon = s.mon := rfl
theorem keeps_countBeat : Keeps s (countBeat n b k s) := keeps_updPort _ _ _

theorem onlyPort_countBeat : OnlyPort n s (countBeat n b k s) := onlyPort_setPort _ _ _

theorem rtag_countBeat : get none (port (countBeat n b k s) n).rtags b.tag.toNat =
    if b.last then none else some { k with got := k.got + 1 } := by
  simp [countBeat]

/-- The final beat frees the tag, for the next port cycle on. -/
theorem freedR_countBeat (h : b.last = true) : (port (countBeat n b k s) n).freedR.getLsbD b.tag.toNat = true := by
  simp only [countBeat, port_updPort_self, h, if_true]
  exact getLsbD_setBit_self _ b.tag.isLt

end

/-! ### After the final beat (09 R234, Table 9.5) -/

theorem applyPending_of_not_halted {ch : Nat} {s : State} (h : (chan s ch).st ≠ .halted) : applyPending ch s = s := by
  simp [applyPending, h]

/-- Of a channel that is not HALTED a final beat can move the first ccyc for the halt only. -/
theorem afterFinal_eq {ch : Nat} {s : State} (failed : Bool) (h : (chan s ch).st ≠ .halted) :
    ∃ x, afterFinal ch failed s = updChan ch (fun c => { c with haltAt := x }) s := by
  unfold afterFinal
  rw [applyPending_of_not_halted (by rw [chan_updChan_self]; split <;> exact h)]
  dsimp only [updChan]
  split
  · exact ⟨_, rfl⟩
  · exact ⟨(chan s ch).haltAt, rfl⟩

/-- Where no fault is held either, it changes nothing. -/
theorem afterFinal_eq_self {ch : Nat} {s : State} (failed : Bool) (hst : (chan s ch).st ≠ .halted) (hidle : (chan s ch).st ≠ .idle)
    (hheld : (chan s ch).held = none) : afterFinal ch failed s = s := by
  have hupd : updChan ch (fun c => if waitsForTags c && failed then { c with haltAt := max c.haltAt (s.clk.now + 1) } else c) s
      = s := by
    simp [updChan, waitsForTags, hheld, setChan_chan_self hidle]
  simp only [afterFinal]
  rw [hupd, applyPending_of_not_halted hst]

/-- What follows a beat: after the final one of its tag, `afterFinal`. -/
def endBeat (last : Bool) (ch : Nat) (failed : Bool) (s : State) : State := if last then afterFinal ch failed s else s

theorem endBeat_eq {ch : Nat} {s : State} (last failed : Bool) (h : (chan s ch).st ≠ .halted) :
    ∃ x, endBeat last ch failed s = s ∨ endBeat last ch failed s = updChan ch (fun c => { c with haltAt := x }) s := by
  cases last with
  | false => exact ⟨0, .inl rfl⟩
  | true =>
    obtain ⟨x, hx⟩ := afterFinal_eq failed h
    exact ⟨x, .inr hx⟩

/-- What follows a beat leaves of the channel all but the first ccyc for the halt, and every other channel. -/
theorem endBeat_frame {s : State} {ch : Nat} (last failed : Bool) (hst : (chan s ch).st ≠ .halted) :
    (∃ x, chan (endBeat last ch failed s) ch = { chan s ch with haltAt := x }) ∧
    (∀ j, j ≠ ch → chan (endBeat last ch failed s) j = chan s j) ∧ Keeps s (endBeat last ch failed s) := by
  obtain ⟨x, hx | hx⟩ := endBeat_eq last failed hst <;> rw [hx]
  · exact ⟨⟨_, rfl⟩, fun _ _ => rfl, .refl s⟩
  · exact ⟨⟨x, chan_updChan_self _ _ _⟩, fun j hj => chan_updChan_ne _ _ hj, keeps_updChan _ _ _⟩

theorem endBeat_eq_self {ch : Nat} {s : State} (last failed : Bool) (hst : (chan s ch).st ≠ .halted)
    (hidle : (chan s ch).st ≠ .idle) (hheld : (chan s ch).held = none) : endBeat last ch failed s = s := by
  cases last with
  | false => rfl
  | true => exact afterFinal_eq_self failed hst hidle hheld

/-! ### Detecting the fault of a response (09 R226, R227) -/

theorem mapPorts_clk (f : Port → Port) (s : State) : (mapPorts f s).clk = s.clk := by
  have h : ∀ (l : List Nat) (s : State), (l.foldl (fun s n => updPort n f s) s).clk = s.clk := fun l => by
    induction l with
    | nil => exact fun _ => rfl
    | cons n r ih => exact fun s => ih _
  exact h _ _

@[simp] theorem withdraw_clk (ch : Nat) (s : State) : (withdraw ch s).clk = s.clk := by
  rw [withdraw, updChan_clk, mapPorts_clk]

theorem chan_withdraw_self (ch : Nat) (s : State) : ∃ x, chan (withdraw ch s) ch = { chan s ch with run := x } :=
  ⟨_, by simp [withdraw]; rfl⟩

theorem chan_holdFault_ne {ch j : Nat} (r : FaultRec) (haltAt : Nat) (s : State) (h : j ≠ ch) :
    chan (holdFault ch r haltAt s) j = chan s j := by
  unfold holdFault oweLog
  dsimp only
  split
  · split
    · split
      · rw [chan_updChan_ne _ _ h, chan_setChan_ne _ _ h]
      · rw [chan_setChan_ne _ _ h]
    · split
      · rw [chan_updChan_ne _ _ h]
      · rfl
  · rw [chan_withdraw_ne _ h, chan_setChan_ne _ _ h]

theorem chan_detect_ne {ch j : Nat} (r : FaultRec) (haltAt : Nat) (s : State) (h : j ≠ ch) :
    chan (detect ch r haltAt s) j = chan s j := by
  simp only [detect, showPend]
  rw [chan_setChan_ne _ _ h, chan_holdFault_ne _ _ _ h]

/-- A channel with its first fault held, and HALT_PEND. -/
def withFault (r : FaultRec) (now haltAt : Nat) (c : Channel) : Channel :=
  { c with held := some r, faultAt := now, haltAt := haltAt, haltPend := true }

/-- The first fault of a channel, detected before the halt can come: it is held, and HALT_PEND shows it; the run gives up its unpresented
writes. -/
theorem chan_detect_first {ch : Nat} {s : State} (r : FaultRec) {haltAt : Nat} (hheld : (chan s ch).held = none)
    (hlater : s.clk.now < haltAt) :
    ∃ x, chan (detect ch r haltAt s) ch = { withFault r s.clk.now haltAt (chan s ch) with run := x } := by
  have hhold : holdFault ch r haltAt s =
      withdraw ch (setChan ch { chan s ch with held := some r, faultAt := s.clk.now, haltAt := haltAt } s) := by
    simp [holdFault, hheld]
  obtain ⟨x, hx⟩ := chan_withdraw_self ch
    (setChan ch { chan s ch with held := some r, faultAt := s.clk.now, haltAt := haltAt } s)
  rw [chan_setChan_self] at hx
  refine ⟨x, ?_⟩
  simp only [detect, showPend, hhold, chan_setChan_self]
  have hnot : ¬ haltAt ≤ s.clk.now := Nat.not_le.2 hlater
  simp [hx, haltReady, hnot, withFault]

section
variable {s : State} {ch : Nat} (hun : unmoved s ch = true)
include hun

theorem earlier_of_unmoved : earlier s ch = none := by
  simp_all [unmoved, earlier]

theorem beforeResponse_of_unmoved : beforeResponse ch s = s := by
  have hnote : get none s.before ch = none := by simpa [unmoved] using hun
  simp [beforeResponse, yieldProgress, yieldPark, earlier_of_unmoved hun, hnote]

theorem detectResponse_of_unmoved (r : FaultRec) (haltAt : Nat) (hst : (chan s ch).st ≠ .ready) :
    detectResponse ch r haltAt s = detect ch r haltAt s := by
  have hreached : reachedNow s ch = false := by
    simp [reachedNow, selectedNow, earlier_of_unmoved hun, hst]
  simp [detectResponse, hreached, beforeResponse_of_unmoved hun]

end

/-! ### Beats of data (02 R52, 06 R178) -/

theorem keeps_schedule (s : State) : Keeps s (schedule s) := Keeps.foldl _ (fun t ch => keeps_updChan ch _ t) _ s
theorem keeps_stage (ch : Nat) (t : RTag) (tag : Tag) (beat : Nat) (data : BitVec 256) (chk : BitVec 19) (bad : Bool) (s : State) :
    Keeps s (stage ch t tag beat data chk bad s) := (keeps_updChan _ _ _).trans (keeps_schedule _)

/-- The fault that a failing beat brings: its cause and detail (06 Table 6.4; 09 Table 9.4). -/
def beatFault (b : RdBeat) (a : Addr) (dir : BitVec 2) (n : Nat) : FaultRec :=
  { cause := if b.resp = 0 then .ecc else respCause b.resp, addr := a, dir := dir, port := BitVec.ofNat 3 n
    detail := if b.resp = 0 then 1 else respDetail b.resp b.detail, resp := b.resp, tag := b.tag }

section
variable {n : Nat} {t : RTag} {b : RdBeat} {s : State} (hst : (chan s t.ch).st ≠ .halted)
include hst

theorem dataBeat_clean (hresp : b.resp = 0) (hcode : decodeBeat b.data b.chk = .clean) :
    dataBeat n t b s =
      if beatNeeded (chan s t.ch) t ((beatAddr t.addr t.size t.got).toNat / 32) then
        stage t.ch t b.tag ((beatAddr t.addr t.size t.got).toNat / 32) b.data b.chk false s
      else s := by
  simp [dataBeat, failingBeat, hresp, hcode, hst]

variable (hneed : beatNeeded (chan s t.ch) t ((beatAddr t.addr t.size t.got).toNat / 32) = true)
include hneed

theorem dataBeat_corrected {d : BitVec 256} {x : BitVec 19} (hresp : b.resp = 0)
    (hcode : decodeBeat b.data b.chk = .corrected d x) :
    dataBeat n t b s = stage t.ch { t with late := true } b.tag ((beatAddr t.addr t.size t.got).toNat / 32) d x false
      (markLate n b.tag (countCorrection 0 s)) := by
  simp [dataBeat, failingBeat, hresp, hcode, hst, hneed]

/-- A failing beat raises its fault and joins staging as a bad one. -/
theorem dataBeat_failing (hun : unmoved s t.ch = true) (hfresh : t.failed = false) (hready : (chan s t.ch).st ≠ .ready)
    (hfail : failingBeat b = true) :
    dataBeat n t b s = stage t.ch t b.tag ((beatAddr t.addr t.size t.got).toNat / 32) b.data b.chk true
      (markFailed n b.tag false (detect t.ch (beatFault b (beatAddr t.addr t.size t.got) dirRead n) (s.clk.now + 1) s)) := by
  by_cases hresp : b.resp = 0
  · have hcode : decodeBeat b.data b.chk = .uncorrectable := by simpa [failingBeat, hresp] using hfail
    simp [dataBeat, hfail, beforeResponse_of_unmoved hun, badReadBeat, hresp, hcode, hst, hneed, hfresh,
      detectResponse_of_unmoved hun _ _ hready, beatFault]
  · have hresp : ¬ b.resp = 0#3 := hresp
    simp [dataBeat, hfail, beforeResponse_of_unmoved hun, badReadBeat, hresp, hst, hneed, hfresh,
      detectResponse_of_unmoved hun _ _ hready, beatFault]

end

end Sys2Proof.Machine
end

section
/-! PROOFS. Read beats at their port (02 R46 to R52, R62; 04 R105; 06 R163 to R180): the rule of READ_RESPONSE_BEAT for each case, and
what each leaves. -/

namespace Sys2Proof.Machine

open Sys2Proof.Safety

/-! ### Corrections (06 R178, R180) -/

section
variable (src : BitVec 3) (s : State)

@[simp] theorem countCorrection_chans : (countCorrection src s).chans = s.chans := by
  unfold countCorrection growCount; dsimp only; split <;> rfl
@[simp] theorem countCorrection_flog : (countCorrection src s).flog = s.flog := by
  unfold countCorrection growCount; dsimp only; split <;> rfl
@[simp] theorem countCorrection_clk : (countCorrection src s).clk = s.clk := by
  unfold countCorrection growCount; dsimp only; split <;> rfl
@[simp] theorem chan_countCorrection (j : Nat) : chan (countCorrection src s) j = chan s j := by simp [chan]

/-- COUNT grows by one, and names the check point. -/
theorem countCorrection_mon :
    (countCorrection src s).mon.eccCnt = satAdd s.mon.eccCnt 1 ∧ (countCorrection src s).mon.eccSrc = src := by
  unfold countCorrection growCount; dsimp only; split <;> exact ⟨rfl, rfl⟩

theorem satAdd_one {x : BitVec 16} (h : x ≠ 0xFFFF) : satAdd x 1 = x + 1 := by
  have hmin : min (x.toNat + 1) (2 ^ 16 - 1) = x.toNat + 1 := by
    have hx : x.toNat ≠ 0xFFFF := fun he => h (BitVec.eq_of_toNat_eq he)
    omega
  rw [satAdd, hmin]
  exact BitVec.eq_of_toNat_eq (by simp)

/-- The increment that makes COUNT equal to THRESH sets ECC_THRESH. -/
theorem countCorrection_cause (hroom : s.mon.eccCnt ≠ 0xFFFF) (hthr : s.mon.eccCnt + 1 = s.mon.eccThr) :
    (countCorrection src s).irq.cause.getLsbD 4 = true := by
  have hne : s.mon.eccCnt + 1 ≠ s.mon.eccCnt := by bv_omega
  simp only [countCorrection, growCount, satAdd_one hroom]
  rw [if_pos ⟨hne, hthr⟩]
  exact getLsbD_setCause_self _ (by decide)

end

/-! ### Beats of a fetch (04 R105) -/

/-- The channel waits for a fetch, and holds no fault. -/
structure AwaitsFetch (s : State) (ch : Nat) : Prop where
  waiting : (chan s ch).st = .waiting
  fetch : (chan s ch).waitOn = .fetch
  unheld : (chan s ch).held = none

/-- A channel as the group at `a` makes it READY in ccyc `now`. -/
def withGroup (now : Nat) (a : Addr) (d : BitVec 256) (c : Channel) : Channel :=
  { c with st := .ready, waitOn := .none, waitArg := 0, since := now, fetchIn := none
           buf := some { base := { sys := true, addr := a }, words := groupWords d } }

theorem chan_groupArrives (ch j : Nat) (a : Addr) (d : BitVec 256) (s : State) :
    chan (groupArrives ch a d s) j = if j = ch then withGroup s.clk.now a d (chan s ch) else chan s j := by
  simp only [groupArrives, goReady, chan_updChan, chan_noteBefore, updChan_clk, noteBefore_clk, if_true]
  split <;> rfl

theorem keeps_groupArrives (ch : Nat) (a : Addr) (d : BitVec 256) (s : State) : Keeps s (groupArrives ch a d s) :=
  (keeps_noteBefore _ _).trans ((keeps_updChan _ _ _).trans (keeps_goReady _ _))

section
variable {n : Nat} {t : RTag} {b : RdBeat} {s : State} (hw : AwaitsFetch s t.ch) (hstale : t.stale = false)
include hw hstale

theorem fetchBeat_clean (hresp : b.resp = 0) (hcode : decodeBeat b.data b.chk = .clean) :
    fetchBeat n t b s = groupArrives t.ch t.addr b.data s := by
  simp [fetchBeat, hresp, hcode, hstale, hw.waiting, hw.fetch, stopping, hw.unheld]

theorem fetchBeat_corrected {d : BitVec 256} {x : BitVec 19} (hresp : b.resp = 0)
    (hcode : decodeBeat b.data b.chk = .corrected d x) :
    fetchBeat n t b s = updChan t.ch (fun c => { c with fetchIn := some (s.clk.now, t.addr, d) }) (countCorrection 0 s) := by
  simp [fetchBeat, hresp, hcode, hstale, hw.waiting, hw.fetch, stopping, hw.unheld]

theorem fetchBeat_error (hun : unmoved s t.ch = true) (hresp : b.resp ≠ 0) :
    fetchBeat n t b s = detect t.ch (beatFault b t.addr dirFetch n) (s.clk.now + 1) s := by
  have hready : (chan s t.ch).st ≠ .ready := by simp [hw.waiting]
  have hresp : ¬ b.resp = 0#3 := hresp
  simp [fetchBeat, hresp, hstale, hw.waiting, hw.fetch, detectResponse_of_unmoved hun _ _ hready, beatFault]

end

/-! ### The cases of READ_RESPONSE_BEAT -/

/-- The beat arrives with good parity at a port that is enabled, in a ccyc of CORE, and names the outstanding read tag `k`. -/
structure BeatOf (s : State) (n : PortNo) (b : RdBeat) (k : RTag) : Prop where
  on : coreOn s = true
  en : (port s n.toNat).en = true
  parity : rdParityOk b = true
  tag : get none (port s n.toNat).rtags b.tag.toNat = some k

section
variable {s : State} {n : PortNo} {b : RdBeat} {k : RTag} (h : BeatOf s n b k)
include h

theorem exec_readResponseBeat_broken (hbroken : k.broken = true) :
    exec (.readResponseBeat n b) s = .next (afterFinal k.ch k.failed (countBeat n.toNat b k s)) := by
  obtain ⟨hon, hen, hpar, htag⟩ := h
  simp [exec, execReadResponseBeat, hon, hen, hpar, htag, hbroken]

variable (hbroken : k.broken = false) (hlast : b.last = (k.got + 1 == k.len))
include hbroken hlast

theorem exec_readResponseBeat_absorbed (hgone : k.orphan = true ∨ (chan s k.ch).st = .aborting) :
    exec (.readResponseBeat n b) s = .next (countBeat n.toNat b k (absorbBeat b s)) := by
  obtain ⟨hon, hen, hpar, htag⟩ := h
  have hgone : (k.orphan || (chan s k.ch).st == .aborting) = true := by simpa using hgone
  simp only [exec, execReadResponseBeat, hon, hen, hpar, htag, hbroken, ← hlast, hgone, bne_self_eq_false,
    Bool.not_true, Bool.or_self, Bool.false_eq_true, if_false, if_true]

/-- A beat that is not absorbed lands, on its tag's count. -/
theorem exec_readResponseBeat_lands (horphan : k.orphan = false) (hst : (chan s k.ch).st ≠ .aborting) (hresp : b.resp.toNat ≤ 4) :
    exec (.readResponseBeat n b) s = .next (endBeat b.last k.ch (failsWith s k b)
      (if k.fetch then fetchBeat n.toNat k b (countBeat n.toNat b k s) else dataBeat n.toNat k b (countBeat n.toNat b k s))) := by
  obtain ⟨hon, hen, hpar, htag⟩ := h
  have hstays : (k.orphan || (chan s k.ch).st == .aborting) = false := by simpa [horphan] using hst
  have hresp : ¬ 4 < b.resp.toNat := Nat.not_lt.2 hresp
  simp only [exec, execReadResponseBeat, hon, hen, hpar, htag, hbroken, ← hlast, hstays, hresp, bne_self_eq_false,
    Bool.not_true, Bool.or_self, Bool.false_eq_true, if_false, endBeat]

end

/-- What a beat with bad parity leaves: every read tag outstanding on its port broken, and the report (02 R62). -/
def droppedBeat (n : PortNo) (b : RdBeat) (s : State) : State :=
  updPort n.toNat (mapRtags (fun t => { t with broken := true }))
    (logParity n.toNat dirRead b.tag ((get none (port s n.toNat).rtags b.tag.toNat).map (·.ch)) s)

theorem exec_readResponseBeat_parity {s : State} {n : PortNo} {b : RdBeat} (hon : coreOn s = true)
    (hen : (port s n.toNat).en = true) (hpar : rdParityOk b = false) :
    exec (.readResponseBeat n b) s = .next (droppedBeat n b s) := by
  simp [exec, execReadResponseBeat, droppedBeat, hon, hen, hpar]

end Sys2Proof.Machine
end

section
/-! PROOFS. READ_RESPONSE_BEAT settled (O29): what each kind of beat leaves, from the rules of its steps. -/

namespace Sys2Proof.Machine

open Sys2Proof.Safety

/-! ### Beats of a MOVE's reads -/

/-- The channel runs with a MOVE under way, and holds no fault. -/
structure Moves (s : State) (ch : Nat) (r : Run) : Prop where
  running : (chan s ch).st = .running
  run : (chan s ch).run = some r
  unheld : (chan s ch).held = none

theorem Moves.of_chan {s t : State} {ch : Nat} {r : Run} (hm : Moves s ch r) (h : chan t ch = chan s ch) : Moves t ch r :=
  ⟨h ▸ hm.running, h ▸ hm.run, h ▸ hm.unheld⟩

/-- What the channel is after a beat of it has been staged still runs and holds no fault. -/
theorem Moves.of_sansReady {s t : State} {ch : Nat} {r : Run} (hm : Moves s ch r) {x : Option Run}
    (h : sansReady (chan t ch) = sansReady { chan s ch with run := x }) :
    (chan t ch).st = .running ∧ (chan t ch).held = none :=
  ⟨(congrArg Channel.st h).trans hm.running, (congrArg Channel.held h).trans hm.unheld⟩

/-- A channel with one more beat in staging. -/
def withBeat (st : Staged) (r : Run) (c : Channel) : Channel := { c with run := some (withStaged st r) }

/-- What follows a beat leaves alone a channel that runs and holds no fault. -/
theorem endBeat_of_running {s : State} {ch : Nat} (last failed : Bool) (hst : (chan s ch).st = .running)
    (hheld : (chan s ch).held = none) : endBeat last ch failed s = s :=
  endBeat_eq_self last failed (by simp [hst]) (by simp [hst]) hheld

section
variable {s : State} {ch : Nat} {r : Run} (hm : Moves s ch r)
include hm

/-- A beat staged for a channel that moves, and what follows it. -/
theorem endBeat_stage (last failed : Bool) (t : RTag) (tag : Tag) (beat : Nat) (data : BitVec 256) (chk : BitVec 19) (bad : Bool) :
    OnlyChans s (endBeat last ch failed (stage ch t tag beat data chk bad s)) ∧
    sansReady (chan (endBeat last ch failed (stage ch t tag beat data chk bad s)) ch) =
      sansReady (withBeat (landedBeat s.clk.now t tag beat data chk bad) r (chan s ch)) ∧
    ∀ j, j ≠ ch → sansReady (chan (endBeat last ch failed (stage ch t tag beat data chk bad s)) j) = sansReady (chan s j) := by
  obtain ⟨honly, hself, hothers⟩ := stage_spec ch t tag beat data chk bad s
  obtain ⟨hst, hheld⟩ := hm.of_sansReady hself
  rw [hm.run] at hself
  rw [endBeat_of_running _ _ hst hheld]
  exact ⟨honly, hself, hothers⟩

end

/-- What the fault of a needed beat leaves of its channel, and of the others. -/
theorem dataBeat_failing_spec {s : State} {n : Nat} {t : RTag} {b : RdBeat} {r : Run} (hm : Moves s t.ch r)
    (hneed : beatNeeded (chan s t.ch) t ((beatAddr t.addr t.size t.got).toNat / 32) = true)
    (hun : unmoved s t.ch = true) (hfresh : t.failed = false) (hfail : failingBeat b = true) :
    (∃ x, sansReady (chan (dataBeat n t b s) t.ch) = sansReady {
      withFault (beatFault b (beatAddr t.addr t.size t.got) dirRead n) s.clk.now (s.clk.now + 1) (chan s t.ch) with run := x }) ∧
    (∀ j, j ≠ t.ch → sansReady (chan (dataBeat n t b s) j) = sansReady (chan s j)) ∧ Keeps s (dataBeat n t b s) := by
  rw [dataBeat_failing (by simp [hm.running]) hneed hun hfresh (by simp [hm.running]) hfail]
  obtain ⟨x, hx⟩ := chan_detect_first (beatFault b (beatAddr t.addr t.size t.got) dirRead n) hm.unheld
    (Nat.lt_succ_self s.clk.now)
  refine ⟨⟨_, (stage_spec _ _ _ _ _ _ _ _).2.1.trans (by simp only [markFailed, chan_updPort, hx]; rfl)⟩, fun j hj => ?_, ?_⟩
  · rw [(stage_spec _ _ _ _ _ _ _ _).2.2 j hj, markFailed, chan_updPort, chan_detect_ne _ _ _ hj]
  · exact (keeps_detect _ _ _ _).trans ((keeps_updPort _ _ _).trans (keeps_stage _ _ _ _ _ _ _ _))

section
variable {s : State} {n : PortNo} {b : RdBeat} {k : RTag} {r : Run} (h : BeatOf s n b k) (hm : Moves s k.ch r)
include h hm

/-- A beat of a broken tag is counted, and no more (02 R62). -/
theorem readBeat_broken (hbroken : k.broken = true) :
    exec (.readResponseBeat n b) s = .next (countBeat n.toNat b k s) := by
  rw [exec_readResponseBeat_broken h hbroken,
    afterFinal_eq_self k.failed (by simp [hm.running]) (by simp [hm.running]) (by simp [hm.unheld])]

variable (hbroken : k.broken = false) (horphan : k.orphan = false) (hfetch : k.fetch = false)
  (hlast : b.last = (k.got + 1 == k.len))
include hbroken horphan hfetch hlast

/-- The beat lands as one of data. -/
theorem exec_readResponseBeat_data (hresp : b.resp.toNat ≤ 4) :
    exec (.readResponseBeat n b) s =
      .next (endBeat b.last k.ch (failsWith s k b) (dataBeat n.toNat k b (countBeat n.toNat b k s))) := by
  have hst : (chan s k.ch).st ≠ .aborting := by simp [hm.running]
  simpa [hfetch] using exec_readResponseBeat_lands h hbroken hlast horphan hst hresp

/-- The beat of a clean code word is counted, and staged where it is needed. -/
theorem readBeat_clean (hresp : b.resp = 0) (hcode : decodeBeat b.data b.chk = .clean) :
    ∃ t, exec (.readResponseBeat n b) s = .next t ∧ OnlyChans (countBeat n.toNat b k s) t ∧
      sansReady (chan t k.ch) = sansReady (
        if beatNeeded (chan s k.ch) k ((beatAddr k.addr k.size k.got).toNat / 32) then
          withBeat (landedBeat s.clk.now k b.tag ((beatAddr k.addr k.size k.got).toNat / 32) b.data b.chk false) r (chan s k.ch)
        else chan s k.ch) ∧
      ∀ j, j ≠ k.ch → sansReady (chan t j) = sansReady (chan s j) := by
  have hm' : Moves (countBeat n.toNat b k s) k.ch r := hm.of_chan (chan_countBeat _ _ _ _ _)
  have hst : (chan (countBeat n.toNat b k s) k.ch).st ≠ .halted := by simp [hm.running]
  refine ⟨_, exec_readResponseBeat_data h hm hbroken horphan hfetch hlast (by simp [hresp]), ?_⟩
  rw [dataBeat_clean hst hresp hcode, chan_countBeat]
  by_cases hneed : beatNeeded (chan s k.ch) k ((beatAddr k.addr k.size k.got).toNat / 32) = true
  · simp only [hneed, if_true]
    exact endBeat_stage hm' _ _ _ _ _ _ _ _
  · simp only [hneed, Bool.false_eq_true, if_false]
    rw [endBeat_of_running _ _ hm'.running hm'.unheld]
    exact ⟨.refl _, rfl, fun _ _ => rfl⟩

variable (hneed : beatNeeded (chan s k.ch) k ((beatAddr k.addr k.size k.got).toNat / 32) = true)
include hneed

/-- A needed beat with a correctable code word is staged corrected and late, and counted at check point 0. -/
theorem readBeat_corrected {d : BitVec 256} {x : BitVec 19} (hresp : b.resp = 0)
    (hcode : decodeBeat b.data b.chk = .corrected d x) :
    ∃ t, exec (.readResponseBeat n b) s = .next t ∧
      OnlyChans (markLate n.toNat b.tag (countCorrection 0 (countBeat n.toNat b k s))) t ∧
      sansReady (chan t k.ch) = sansReady (withBeat (landedBeat s.clk.now { k with late := true } b.tag
          ((beatAddr k.addr k.size k.got).toNat / 32) d x false) r (chan s k.ch)) ∧
      ∀ j, j ≠ k.ch → sansReady (chan t j) = sansReady (chan s j) := by
  have hchan : ∀ j, chan (markLate n.toNat b.tag (countCorrection 0 (countBeat n.toNat b k s))) j = chan s j := by
    simp [markLate]
  have hclk : (markLate n.toNat b.tag (countCorrection 0 (countBeat n.toNat b k s))).clk = s.clk := by simp [markLate]
  have hm' : Moves (markLate n.toNat b.tag (countCorrection 0 (countBeat n.toNat b k s))) k.ch r :=
    hm.of_chan (hchan _)
  refine ⟨_, exec_readResponseBeat_data h hm hbroken horphan hfetch hlast (by simp [hresp]), ?_⟩
  rw [dataBeat_corrected (s := countBeat n.toNat b k s) (by simp [hm.running]) hneed hresp hcode]
  have hend := endBeat_stage hm' b.last (failsWith s k b) { k with late := true } b.tag
    ((beatAddr k.addr k.size k.got).toNat / 32) d x false
  simpa only [hchan, hclk] using hend

/-- A needed beat that fails raises its fault, and leaves the channel's registers (06 R178, R179; 09 R226). -/
theorem readBeat_failing (hfresh : k.failed = false) (hun : unmoved s k.ch = true) (hresp : b.resp.toNat ≤ 4)
    (hfail : failingBeat b = true) :
    ∃ t, exec (.readResponseBeat n b) s = .next t ∧ (chan t k.ch).haltPend = true ∧
      (chan t k.ch).held = some (beatFault b (beatAddr k.addr k.size k.got) dirRead n.toNat) ∧
      (chan t k.ch).a = (chan s k.ch).a ∧ (chan t k.ch).pc = (chan s k.ch).pc ∧
      (∀ j, j ≠ k.ch → sansReady (chan t j) = sansReady (chan s j)) ∧ KeepsMemory s t := by
  have hm' : Moves (countBeat n.toNat b k s) k.ch r := hm.of_chan (chan_countBeat _ _ _ _ _)
  obtain ⟨⟨x, hself⟩, hothers, hkeeps⟩ := dataBeat_failing_spec (n := n.toNat) hm' hneed hun hfresh hfail
  have hrunning : (chan (dataBeat n.toNat k b (countBeat n.toNat b k s)) k.ch).st = .running :=
    (congrArg Channel.st hself).trans hm.running
  obtain ⟨⟨z, hz⟩, hne, hend⟩ := endBeat_frame (s := dataBeat n.toNat k b (countBeat n.toNat b k s)) (ch := k.ch) b.last
    (failsWith s k b) (by simp [hrunning])
  refine ⟨_, exec_readResponseBeat_data h hm hbroken horphan hfetch hlast hresp, ?_⟩
  rw [hz]
  refine ⟨congrArg Channel.haltPend hself, congrArg Channel.held hself, (congrArg Channel.a hself :),
    (congrArg Channel.pc hself :),
    fun j hj => ?_, ?_⟩
  · rw [hne j hj, hothers j hj, chan_countBeat]
  · exact ((keeps_countBeat n.toNat b k s).trans (hkeeps.trans hend)).keepsMemory
end

/-! ### Beats that are absorbed (06 Table 6.3) -/

theorem absorbBeat_chans (b : RdBeat) (s : State) :
    (absorbBeat b s).chans = s.chans ∧ (absorbBeat b s).flog = s.flog := by
  unfold absorbBeat
  split
  · split <;> simp
  · exact ⟨rfl, rfl⟩

theorem keeps_absorbBeat (b : RdBeat) (s : State) : Keeps s (absorbBeat b s) := by
  unfold absorbBeat
  split
  · split
    · exact keeps_countCorrection _ _
    · exact .refl s
  · exact .refl s

theorem absorbBeat_corrected {b : RdBeat} {d : BitVec 256} {x : BitVec 19} (s : State) (hresp : b.resp = 0)
    (hcode : decodeBeat b.data b.chk = .corrected d x) : absorbBeat b s = countCorrection 0 s := by
  simp [absorbBeat, hresp, hcode]

/-- Nothing is counted of a beat without a correction. -/
theorem absorbBeat_uncorrected {b : RdBeat} (s : State)
    (h : b.resp ≠ 0 ∨ decodeBeat b.data b.chk = .clean ∨ decodeBeat b.data b.chk = .uncorrectable) : absorbBeat b s = s := by
  unfold absorbBeat
  by_cases hresp : b.resp = 0
  · rw [if_pos hresp]
    obtain h | h | h := h
    · exact absurd hresp h
    · rw [h]
    · rw [h]
  · rw [if_neg hresp]

/-! ### Beats of a fetch (04 R105) -/

section
variable {s : State} {n : PortNo} {b : RdBeat} {k : RTag} (h : BeatOf s n b k) (hw : AwaitsFetch s k.ch)
  (hbroken : k.broken = false) (horphan : k.orphan = false) (hfetch : k.fetch = true) (hstale : k.stale = false)
  (hlast : b.last = (k.got + 1 == k.len))
include h hw hbroken horphan hfetch hlast

/-- The beat lands as one of a fetch. -/
theorem exec_readResponseBeat_fetch (hresp : b.resp.toNat ≤ 4) :
    exec (.readResponseBeat n b) s =
      .next (endBeat b.last k.ch (failsWith s k b) (fetchBeat n.toNat k b (countBeat n.toNat b k s))) := by
  have hst : (chan s k.ch).st ≠ .aborting := by simp [hw.waiting]
  simpa [hfetch] using exec_readResponseBeat_lands h hbroken hlast horphan hst hresp

include hstale

/-- A good group arrives in its ccyc. -/
theorem readBeat_fetched (hresp : b.resp = 0) (hcode : decodeBeat b.data b.chk = .clean) :
    exec (.readResponseBeat n b) s = .next (groupArrives k.ch k.addr b.data (countBeat n.toNat b k s)) := by
  have hw' : AwaitsFetch (countBeat n.toNat b k s) k.ch := ⟨hw.waiting, hw.fetch, hw.unheld⟩
  have hself := chan_groupArrives k.ch k.ch k.addr b.data (countBeat n.toNat b k s)
  rw [if_pos rfl] at hself
  rw [exec_readResponseBeat_fetch h hw hbroken horphan hfetch hlast (by simp [hresp]), fetchBeat_clean hw' hstale hresp hcode,
    endBeat_eq_self] <;> rw [hself]
  · simp [withGroup]
  · simp [withGroup]
  · exact hw.unheld

/-- A corrected group is held for a ccyc. -/
theorem readBeat_fetchCorrected {d : BitVec 256} {x : BitVec 19} (hresp : b.resp = 0)
    (hcode : decodeBeat b.data b.chk = .corrected d x) :
    exec (.readResponseBeat n b) s = .next (updChan k.ch (fun c => { c with fetchIn := some (s.clk.now, k.addr, d) })
      (countCorrection 0 (countBeat n.toNat b k s))) := by
  have hw' : AwaitsFetch (countBeat n.toNat b k s) k.ch := ⟨hw.waiting, hw.fetch, hw.unheld⟩
  rw [exec_readResponseBeat_fetch h hw hbroken horphan hfetch hlast (by simp [hresp]),
    fetchBeat_corrected hw' hstale hresp hcode, endBeat_eq_self] <;>
    simp [hw.waiting, hw.unheld]

/-- An error is held as the channel's fault. -/
theorem readBeat_fetchError (hun : unmoved s k.ch = true) (hresp : b.resp ≠ 0) (hcode : b.resp.toNat ≤ 4) :
    ∃ t, exec (.readResponseBeat n b) s = .next t ∧ KeepsOthers k.ch s t ∧ KeepsMemory s t ∧ (chan t k.ch).haltPend = true ∧
      (chan t k.ch).pc = (chan s k.ch).pc ∧ (chan t k.ch).held = some (beatFault b k.addr dirFetch n.toNat) := by
  have hw' : AwaitsFetch (countBeat n.toNat b k s) k.ch := ⟨hw.waiting, hw.fetch, hw.unheld⟩
  have hun' : unmoved (countBeat n.toNat b k s) k.ch = true := hun
  obtain ⟨x, hx⟩ := chan_detect_first (s := countBeat n.toNat b k s) (beatFault b k.addr dirFetch n.toNat) hw.unheld
    (Nat.lt_succ_self s.clk.now)
  refine ⟨_, exec_readResponseBeat_fetch h hw hbroken horphan hfetch hlast hcode, ?_⟩
  rw [fetchBeat_error hw' hstale hun' hresp]
  obtain ⟨⟨z, hz⟩, hne, hend⟩ := endBeat_frame
    (s := detect k.ch (beatFault b k.addr dirFetch n.toNat) (s.clk.now + 1) (countBeat n.toNat b k s)) (ch := k.ch) b.last
    (failsWith s k b) (by simp [hx, withFault, hw.waiting])
  refine ⟨fun j hj => ?_, ((keeps_countBeat n.toNat b k s).trans ((keeps_detect _ _ _ _).trans hend)).keepsMemory, ?_⟩
  · exact (hne j hj).trans (chan_detect_ne _ _ _ hj)
  · rw [countBeat_clk, hz, hx]
    exact ⟨rfl, rfl, rfl⟩

end

/-! ### Groups held for a ccyc (06 Table 6.3) -/

/-- A fold of steps that each change only the channel they name leaves the others. -/
theorem chan_foldl_of_not_mem {f : State → Nat → State} (hf : ∀ s ch j, j ≠ ch → chan (f s ch) j = chan s j) {l : List Nat} {j : Nat}
    (hj : j ∉ l) (s : State) : chan (l.foldl f s) j = chan s j := by
  induction l generalizing s with
  | nil => rfl
  | cons c r ih =>
    obtain ⟨hne, hr⟩ := not_or.1 (mt List.mem_cons.2 hj)
    exact (ih hr _).trans (hf s c j hne)

/-- Such a fold over a list without repeats changes a channel of the list by its own step, at a time that the steps keep. -/
theorem chan_foldl_of_mem {f : State → Nat → State} (hf : ∀ s ch j, j ≠ ch → chan (f s ch) j = chan s j)
    (hclk : ∀ s ch, (f s ch).clk = s.clk) {l : List Nat} (hl : l.Nodup) {ch : Nat} (hch : ch ∈ l) (s : State) :
    ∃ u, chan u ch = chan s ch ∧ u.clk = s.clk ∧ chan (l.foldl f s) ch = chan (f u ch) ch := by
  induction l generalizing s with
  | nil => simp at hch
  | cons c r ih =>
    obtain ⟨hc, hr⟩ := List.nodup_cons.1 hl
    by_cases heq : ch = c
    · subst heq
      exact ⟨s, rfl, rfl, chan_foldl_of_not_mem hf hc _⟩
    · obtain ⟨u, hu, huclk, hfold⟩ := ih hr ((List.mem_cons.1 hch).resolve_left heq) (f s c)
      exact ⟨u, hu.trans (hf s c ch heq), huclk.trans (hclk s c), hfold⟩

/-- The keys of a canonical table rise. -/
theorem nodup_keysWhere {α : Type} [DecidableEq α] {d : α} {t : Table α} (h : canon d t = true) (p : Nat → α → Bool) :
    (keysWhere t p).Nodup := by
  have hkeys : (t.map (·.1)).Pairwise (· < ·) := by
    induction t with
    | nil => exact .nil
    | cons e r ih =>
      refine List.pairwise_cons.2 ⟨fun x hx => ?_, ih (canon_tail h)⟩
      obtain ⟨f, hf, rfl⟩ := List.mem_map.1 hx
      exact canon_lt h f hf
  exact (hkeys.sublist (List.filter_sublist.map _)).imp fun hlt => Nat.ne_of_lt hlt

theorem nodup_chansWhere {s : State} (h : Inv s) (p : Nat → Channel → Bool) : (chansWhere s p).Nodup := by
  obtain ⟨-, -, hcanon, -⟩ := h
  exact nodup_keysWhere hcanon p

/-- A channel that is not as at reset is found by a condition that it meets. -/
theorem mem_chansWhere {s : State} {ch : Nat} {p : Nat → Channel → Bool} (hidle : (chan s ch).st ≠ .idle)
    (h : p ch (chan s ch) = true) : ch ∈ chansWhere s p := by
  obtain hd | hmem := get_mem (d := ({} : Channel)) s.chans ch
  · exact absurd (congrArg Channel.st hd) hidle
  · exact List.mem_map.2 ⟨_, List.mem_filter.2 ⟨hmem, h⟩, rfl⟩

/-- The step of `heldGroups` for one channel. -/
def heldGroup (s : State) (ch : Nat) : State :=
  match (chan s ch).fetchIn with
  | some (t, a, d) => if t < s.clk.now then groupArrives ch a d s else s
  | none => s

theorem heldGroups_eq_foldl (s : State) : heldGroups s =
    (chansWhere s (fun _ c => c.fetchIn.isSome && c.st == .waiting && c.waitOn == .fetch && !stopping c)).foldl heldGroup s := rfl

theorem chan_heldGroup_ne (s : State) (ch j : Nat) (h : j ≠ ch) : chan (heldGroup s ch) j = chan s j := by
  unfold heldGroup
  split
  · split
    · rw [chan_groupArrives, if_neg h]
    · rfl
  · rfl

theorem heldGroup_clk (s : State) (ch : Nat) : (heldGroup s ch).clk = s.clk := by
  unfold heldGroup
  split
  · split
    · simp [groupArrives, goReady]
    · rfl
  · rfl

/-- A group that a correction has held arrives in the next ccyc. -/
theorem chan_heldGroups {s : State} {ch at' : Nat} {a : Addr} {d : BitVec 256} (hinv : Inv s) (hw : AwaitsFetch s ch)
    (hin : (chan s ch).fetchIn = some (at', a, d)) (hlate : at' < s.clk.now) :
    chan (heldGroups s) ch = withGroup s.clk.now a d (chan s ch) := by
  have hmem := mem_chansWhere (s := s) (ch := ch)
    (p := fun _ c => c.fetchIn.isSome && c.st == .waiting && c.waitOn == .fetch && !stopping c)
    (by simp [hw.waiting]) (by simp [hw.waiting, hw.fetch, hin, stopping, hw.unheld])
  obtain ⟨u, hchan, hclk, hfold⟩ := chan_foldl_of_mem chan_heldGroup_ne heldGroup_clk (nodup_chansWhere hinv _) hmem s
  rw [heldGroups_eq_foldl, hfold, heldGroup, hchan, hin]
  simp only [hclk, hlate, if_true]
  rw [chan_groupArrives, if_pos rfl, hclk, hchan]

/-! ### Bad parity (02 R62) -/

section
variable (n : PortNo) (b : RdBeat) (s : State)

theorem droppedBeat_spec :
    (droppedBeat n b s).irq.cause.getLsbD 3 = true ∧ (droppedBeat n b s).chans = s.chans ∧
    (droppedBeat n b s).movers = s.movers ∧ KeepsMemory s (droppedBeat n b s) ∧
    (∀ j, j ≠ n.toNat → port (droppedBeat n b s) j = port s j) ∧
    port (droppedBeat n b s) n.toNat = mapRtags (fun t => { t with broken := true }) (port s n.toNat) := by
  rw [droppedBeat, logParity_eq_report]
  refine ⟨report_cause (k := 3) _ s (by decide), report_chans 3 _ s, report_movers 3 _ s,
    ((keeps_report _ _ _).trans (keeps_updPort _ _ _)).keepsMemory, fun j hj => ?_, ?_⟩
  · rw [port_updPort_ne _ _ hj, port_report]
  · rw [port_updPort_self, port_report]

/-- The entry of a dropped beat names the channel of its tag, if that is outstanding. -/
theorem droppedBeat_logged (hroom : s.flog.entries.length < 64) :
    ∃ e ∈ (droppedBeat n b s).flog.entries, e.kind = 7 ∧ e.port = n ∧ e.dir = dirRead ∧ e.tag = b.tag ∧
      (∀ k, get none (port s n.toNat).rtags b.tag.toNat = some k → e.detail = 0 ∧ e.ch = BitVec.ofNat 10 k.ch) ∧
      (get none (port s n.toNat).rtags b.tag.toNat = none → e.detail = 1 ∧ e.ch = 0) := by
  rw [droppedBeat, logParity_eq_report]
  obtain ⟨-, hmem⟩ := report_room 3 _ s hroom
  exact ⟨_, hmem, rfl, by simp, rfl, rfl, fun k hk => by simp [hk], fun hk => by simp [hk]⟩

end

/-! ### The obligation -/

theorem beatFault_of_error {b : RdBeat} (a : Addr) (dir : BitVec 2) (n : PortNo) (h : b.resp ≠ 0) :
    beatFault b a dir n.toNat = { cause := respCause b.resp, addr := a, dir := dir, port := n
                                  detail := respDetail b.resp b.detail, resp := b.resp, tag := b.tag } := by
  have h : ¬ b.resp = 0#3 := h
  simp [beatFault, h]

theorem beatFault_of_code {b : RdBeat} (a : Addr) (dir : BitVec 2) (n : PortNo) (h : b.resp = 0) :
    beatFault b a dir n.toNat = { cause := .ecc, addr := a, dir := dir, port := n, detail := 1, resp := 0, tag := b.tag } := by
  simp [beatFault, h]

theorem failingBeat_of_error {b : RdBeat} (h : b.resp ≠ 0) : failingBeat b = true := by
  have h : ¬ b.resp = 0#3 := h
  simp [failingBeat, h]

theorem resp_ne_zero {r : BitVec 3} (h : 1 ≤ r.toNat) : r ≠ 0 := by
  rintro rfl
  simp at h

/-- Settles O29: the beats of a MOVE's reads, those that are absorbed, those of a fetch, the groups held for a ccyc and the beats with
bad parity, each by the rule of its case. -/
theorem readBeatsLandOrFail : Obligations.ReadBeatsLandOrFail := by
  refine ⟨?data, ?absorbed, ?fetch, ?group, ?parity⟩
  case data =>
    intro s n b k r hon hen hpar htag horphan hfetch hst hrun hheld
    have h : BeatOf s n b k := ⟨hon, hen, hpar, htag⟩
    have hm : Moves s k.ch r := ⟨hst, hrun, hheld⟩
    refine ⟨fun hbroken _ => ⟨_, readBeat_broken h hm hbroken, rtag_countBeat _ _ _ _, onlyPort_countBeat _ _ _ _⟩,
      fun hbroken hlast hresp hcode => ?clean, fun hbroken hlast hneed => ⟨fun d x hresp hcode => ?corrected,
        fun hfresh hun => ⟨fun hlow hhigh => ?error, fun hresp hcode => ?uncorrectable⟩⟩⟩
    case clean =>
      obtain ⟨t, hexec, honly, hself, hothers⟩ := readBeat_clean h hm hbroken horphan hfetch hlast hresp hcode
      refine ⟨t, hexec, ?_, fun hl => ?_, ?_, hothers, ?_, fun j hj => ?_⟩
      · rw [honly.port]
        exact rtag_countBeat _ _ _ _
      · rw [honly.port]
        exact freedR_countBeat _ _ _ _ hl
      · rw [hself]
        split
        · rfl
        · rw [← hm.run]
      · exact ⟨fun a => (honly.keepsMemory.1 a).trans rfl, fun a => (honly.keepsMemory.2 a).trans rfl⟩
      · rw [honly.port]
        exact (onlyPort_countBeat _ _ _ _).1 j hj
    case corrected =>
      obtain ⟨t, hexec, honly, hself, hothers⟩ := readBeat_corrected h hm hbroken horphan hfetch hlast hneed hresp hcode
      obtain ⟨hcnt, hsrc⟩ := countCorrection_mon 0 (countBeat n.toNat b k s)
      have hmem := ((keeps_countBeat n.toNat b k s).trans ((keeps_countCorrection 0 _).trans
        (keeps_updPort _ _ _ : Keeps _ (markLate n.toNat b.tag _)))).keepsMemory
      refine ⟨t, hexec, hself, (congrArg _ honly.mon).trans hcnt, (congrArg _ honly.mon).trans hsrc, fun hroom hthr => ?_,
        hothers, ?_⟩
      · rw [honly.irq]
        exact countCorrection_cause 0 (countBeat n.toNat b k s) hroom hthr
      · exact ⟨fun a => (honly.keepsMemory.1 a).trans (hmem.1 a), fun a => (honly.keepsMemory.2 a).trans (hmem.2 a)⟩
    case error =>
      have hne := resp_ne_zero hlow
      rw [← beatFault_of_error _ _ _ hne]
      exact readBeat_failing h hm hbroken horphan hfetch hlast hneed hfresh hun hhigh (failingBeat_of_error hne)
    case uncorrectable =>
      rw [← beatFault_of_code _ _ _ hresp]
      exact readBeat_failing h hm hbroken horphan hfetch hlast hneed hfresh hun (by simp [hresp]) (by simp [failingBeat, hcode])
  case absorbed =>
    intro s n b k hon hen hpar htag hbroken hlast hgone
    obtain ⟨hchans, hflog⟩ := absorbBeat_chans b s
    refine ⟨_, exec_readResponseBeat_absorbed ⟨hon, hen, hpar, htag⟩ hbroken hlast hgone, hchans, hflog,
      ((keeps_absorbBeat _ _).trans (keeps_countBeat _ _ _ _)).keepsMemory, rtag_countBeat _ _ _ _, fun d x hresp hcode => ?_,
      fun hnone => ?_⟩
    · rw [countBeat_mon, absorbBeat_corrected s hresp hcode]
      exact countCorrection_mon 0 s
    · rw [countBeat_mon, absorbBeat_uncorrected s hnone]
  case fetch =>
    intro s n b k hon hen hpar htag hbroken horphan hfetch hstale hst hwait hheld hlast
    have h : BeatOf s n b k := ⟨hon, hen, hpar, htag⟩
    have hw : AwaitsFetch s k.ch := ⟨hst, hwait, hheld⟩
    refine ⟨fun hresp hcode => ?clean, fun d x hresp hcode => ?corrected, fun hlow hhigh hun => ?error⟩
    case clean =>
      refine ⟨_, readBeat_fetched h hw hbroken horphan hfetch hstale hlast hresp hcode, fun j hj => ?_,
        ((keeps_countBeat _ _ _ _).trans (keeps_groupArrives _ _ _ _)).keepsMemory, ?_⟩
      · rw [chan_groupArrives, if_neg hj, chan_countBeat]
      · rw [chan_groupArrives, if_pos rfl]
        rfl
    case corrected =>
      refine ⟨_, readBeat_fetchCorrected h hw hbroken horphan hfetch hstale hlast hresp hcode, fun j hj => ?_,
        ((keeps_countBeat _ _ _ _).trans ((keeps_countCorrection _ _).trans (keeps_updChan _ _ _))).keepsMemory, ?_,
        countCorrection_mon 0 (countBeat n.toNat b k s)⟩
      · rw [chan_updChan_ne _ _ hj, chan_countCorrection, chan_countBeat]
      · rw [chan_updChan_self, chan_countCorrection, chan_countBeat]
    case error =>
      have hne := resp_ne_zero hlow
      rw [← beatFault_of_error _ _ _ hne]
      exact readBeat_fetchError h hw hbroken horphan hfetch hstale hlast hun hne hhigh
  case group =>
    intro s ch at' a d hinv hst hwait hheld hin hlate
    exact chan_heldGroups hinv ⟨hst, hwait, hheld⟩ hin hlate
  case parity =>
    intro s n b hon hen hpar
    obtain ⟨hcause, hchans, hmovers, hmem, hothers, hself⟩ := droppedBeat_spec n b s
    refine ⟨_, exec_readResponseBeat_parity hon hen hpar, hcause, hchans, hmovers, hmem, hothers, ?_, fun j => ?_,
      droppedBeat_logged n b s⟩
    · rw [hself]
      rfl
    · rw [hself]
      exact get_map_optionMap _ _ _

end Sys2Proof.Machine
end

section
/-! PROOFS. WRITE_RESPONSE refuted (O30). The statement speaks of every state, also of one whose table of write tags is not in the
canonical form that `canon_put` keeps. There the entry that a response frees can stand before one of a lower tag, which goes with it
(`freed_unorderedPort`). Where that one is a poisoned burst of the MOVE, which kept it from retiring (06 R176), the MOVE retires as the
late error arrives, and CH_PC moves past it, where the statement has CH_PC stay. -/

namespace Sys2Proof.Machine

open Sys2Proof.Safety

/-! ### The counterexample -/

/-- A write of an earlier instruction of channel 0, its one beat presented in ccyc 0. -/
def earlierWrite : WTag := { sent := 1, cur := false }

/-- A poisoned burst of the MOVE at which channel 0 stands. -/
def poisonedWrite : WTag := { poison := some 0 }

/-- Channel 0 in a MOVE of one element, which has left. -/
def writtenMove : Channel := { st := .running, inMove := true, run := some { geo := {}, wr := 1 } }

/-- Port 0, its write tags listed out of order. -/
def unorderedPort : Port := { en := true, wtags := [(1, some earlierWrite), (0, some poisonedWrite)] }

/-- The block in RUN, with that channel and that port. -/
def unorderedTags : State :=
  { State.reset with
    clk := { now := 1 }
    pwr := { State.reset.pwr with st := .run }
    chans := [(0, writtenMove)]
    ports := [(0, unorderedPort)] }

/-- TERR on tag 1, with good parity. -/
def lateError : WrResp := { tag := 1, resp := 1, detail := 0, beat := 0, par := 0 }

/-- Freeing tag 1 drops the entry of tag 0 with it. -/
theorem freed_unorderedPort : put none unorderedPort.wtags 1 none = [] := rfl

/-- The poisoned burst keeps the MOVE from retiring until then. -/
theorem canRetire_unorderedTags : canRetire unorderedTags 0 = false := rfl

/-- CH_PC of channel 0 in the state that an outcome hands on. -/
def nextPc : Host.Outcome State Fault Refusal → PAddr
  | .next t => (chan t 0).pc
  | _ => {}

/-- The late error finds the MOVE free to retire, so that CH_PC goes on to the next instruction. -/
theorem nextPc_lateError : nextPc (exec (.writeResponse 0 lateError) unorderedTags) = { addr := 8 } := rfl

/-! ### The obligation -/

/-- Refutes O30: the clause of an error on a write of an earlier instruction, at a state whose write tags are listed out of order, has CH_PC
stay at a MOVE that retires. -/
theorem not_writeResponsesFreeTheirTags : ¬ Obligations.WriteResponsesFreeTheirTags := by
  rintro ⟨hresponses, -, -, -⟩
  obtain ⟨hunpoisoned, -, -⟩ := hresponses unorderedTags 0 lateError earlierWrite (by decide) rfl (by decide) rfl rfl
    (by decide) (by decide) (by decide) (by decide)
  obtain ⟨-, herror⟩ := hunpoisoned rfl
  obtain ⟨-, hearlier, -, -, -⟩ := herror (by decide) (by decide) rfl rfl
  obtain ⟨t, hexec, -, -, -, -, -, hpc, -, -⟩ := hearlier rfl rfl canRetire_unorderedTags
  have hnext : nextPc (exec (.writeResponse 0 lateError) unorderedTags) = {} := by
    rw [hexec]
    exact hpc
  rw [nextPc_lateError] at hnext
  exact absurd (congrArg PAddr.addr hnext) (by decide)

end Sys2Proof.Machine
end

section
/-! PROOFS. Host writes of a channel's block (04 R91, R92, R97): what an access that the port serves runs on, the start of a channel by
EN (O20), and the registers of a context that take a write in IDLE, HALTED and PARKED (O38). -/

namespace Sys2Proof.Machine

open Sys2Proof.Safety

/-! ### An access that the port serves -/

theorem coreOn_of_hostTurn {s : State} (h : hostTurn s = true) : coreOn s = true := (Bool.and_eq_true_iff.mp h).1

theorem powered_of_coreOn {s : State} (h : coreOn s = true) : s.pwr.st ≠ .off := by
  intro hoff
  simp [coreOn, coreUp, hoff] at h

/-- In the host's turn an access takes effect at once, on the state in which it is being answered. -/
theorem hostAccess_of_hostTurn {s : State} (h : hostTurn s = true) (i : Instr) (f : State → State) :
    hostAccess i f s = f (answer 0 false s) :=
  hostAccess_ready i f s (powered_of_coreOn (coreOn_of_hostTurn h)) (Bool.and_eq_true_iff.mp h).2

/-! ### Frames -/

theorem onlyChannel_setChan (ch : Nat) (v : Channel) (s : State) : OnlyChannel ch s (setChan ch v s) :=
  ⟨fun _ hk => chan_setChan_ne s v hk, rfl⟩

theorem onlyChannel_startChannel (ch : Nat) (s : State) : OnlyChannel ch s (startChannel ch s) :=
  ⟨fun _ hk => (chan_goReady_ne _ hk).trans (chan_updChan_ne s _ hk), rfl⟩

/-! ### A write of 1 to EN -/

theorem mayStart_iff {s : State} {ch : Nat} :
    mayStart s ch = true ↔ (chan s ch).assigned = true ∧ s.srst.start = none ∧ selfTesting s = false := by
  simp [mayStart, and_assoc]

section
variable {s : State} {ch : Nat}

theorem enableChannel_of_idle (hmay : mayStart s ch = true) (hst : (chan s ch).st = .idle)
    (hstop : (chan s ch).stopAt ≠ some s.clk.now) : enableChannel ch s = startChannel ch s := by
  simp [enableChannel, hmay, hst, hstop]

theorem enableChannel_of_stopped (hmay : mayStart s ch = true) (hst : (chan s ch).st = .idle)
    (hstop : (chan s ch).stopAt = some s.clk.now) :
    enableChannel ch s = setChan ch { chan s ch with startNext := true } s := by
  simp [enableChannel, hmay, hst, hstop]

theorem enableChannel_of_active (hmay : mayStart s ch = true) (hst : (chan s ch).st = .running ∨ (chan s ch).st = .ready) :
    enableChannel ch s = setChan ch { chan s ch with enAt := some s.clk.now } s := by
  have hidle : (chan s ch).st ≠ .idle := by
    obtain h | h := hst <;> simp [h]
  simp [enableChannel, hmay, hst, hidle]

theorem enableChannel_of_not_mayStart (hmay : mayStart s ch = false) : enableChannel ch s = s := by
  simp [enableChannel, hmay]

theorem enableChannel_of_other (hidle : (chan s ch).st ≠ .idle) (hrun : (chan s ch).st ≠ .running)
    (hready : (chan s ch).st ≠ .ready) : enableChannel ch s = s := by
  simp [enableChannel, hidle, hrun, hready]

end

theorem startChannel_spec (ch : Nat) (s : State) :
    (chan (startChannel ch s) ch).st = .ready ∧ (chan (startChannel ch s) ch).en = true ∧
    (chan (startChannel ch s) ch).pc = (chan s ch).entry ∧ (chan (startChannel ch s) ch).entry = (chan s ch).entry ∧
    progress (chan (startChannel ch s) ch) = (false, 0, 0, 0, 0, false, 0) ∧
    (chan (startChannel ch s) ch).a = (chan s ch).a ∧ (chan (startChannel ch s) ch).l = (chan s ch).l ∧
    (chan (startChannel ch s) ch).since = s.clk.now := by
  simp [startChannel, goReady, progress]

theorem exec_chStart_of_hostTurn {s : State} (h : hostTurn s = true) (ch : Chan) :
    exec (.chStart ch) s = .next (enableChannel ch.toNat (answer 0 false s)) :=
  calc exec (.chStart ch) s = .next (hostAccess (.chStart ch) (effChStart ch) s) := rfl
    _ = .next (effChStart ch (answer 0 false s)) := by rw [hostAccess_of_hostTurn h]
    _ = .next (enableChannel ch.toNat (answer 0 false s)) := by
        have hon : coreOn (answer 0 false s) = true := coreOn_of_hostTurn (s := s) h
        rw [effChStart, if_pos hon]

/-- Settles O20: the cases of `enableChannel`, on the state in which the write is being answered. -/
theorem enableStartsAnIdleChannel : Obligations.EnableStartsAnIdleChannel := by
  intro s ch hturn
  rw [exec_chStart_of_hostTurn hturn]
  refine ⟨fun hassigned hreset htest => ?_, fun hno => ?_⟩
  · have hmay : mayStart (answer 0 false s) ch.toNat = true := mayStart_iff.mpr ⟨hassigned, hreset, htest⟩
    refine ⟨fun hidle hstop => ?started, fun hidle hstop => ?stopped, fun hactive => ?noted⟩
    case started =>
      rw [enableChannel_of_idle hmay hidle hstop]
      obtain ⟨hst, hen, hpc, hentry, hprogress, ha, hl, hsince⟩ := startChannel_spec ch.toNat (answer 0 false s)
      exact ⟨_, rfl, hst, hen, hpc, hentry, hprogress, ha, hl, hsince, onlyChannel_startChannel _ _⟩
    case stopped =>
      rw [enableChannel_of_stopped hmay hidle hstop]
      exact ⟨_, rfl, chan_setChan_self _ _ _, onlyChannel_setChan _ _ _⟩
    case noted =>
      rw [enableChannel_of_active hmay hactive]
      exact ⟨_, rfl, chan_setChan_self _ _ _, onlyChannel_setChan _ _ _⟩
  · obtain hbarred | ⟨hidle, hrun, hready⟩ : mayStart (answer 0 false s) ch.toNat = false ∨
        ((chan s ch.toNat).st ≠ .idle ∧ (chan s ch.toNat).st ≠ .running ∧ (chan s ch.toNat).st ≠ .ready) := by
      obtain hunassigned | hreset | htest | hother := hno
      · exact .inl (Bool.eq_false_iff.mpr fun h => Bool.false_ne_true (hunassigned.symm.trans (mayStart_iff.mp h).1))
      · exact .inl (Bool.eq_false_iff.mpr fun h => hreset (mayStart_iff.mp h).2.1)
      · exact .inl (Bool.eq_false_iff.mpr fun h => Bool.false_ne_true ((mayStart_iff.mp h).2.2.symm.trans htest))
      · exact .inr hother
    · rw [enableChannel_of_not_mayStart hbarred]
    · rw [enableChannel_of_other (s := answer 0 false s) hidle hrun hready]

/-! ### Registers of a channel's context -/

theorem reg4_setReg4 {w j k : Nat} (r : Regs4 w) (v : BitVec w) (hj : j < 4) (hk : k < 4) :
    reg4 (setReg4 r j v) k = if k = j then v else reg4 r k := by
  match j, hj with
  | 0, _ | 1, _ | 2, _ | 3, _ => match k, hk with
    | 0, _ | 1, _ | 2, _ | 3, _ => rfl

theorem openToHost_iff {s : State} {c : Channel} :
    openToHost s c = true ↔ c.st = .idle ∨ c.st = .halted ∨ c.st = .parked ∨ c.leftAt = some s.clk.now := by
  simp [openToHost, or_assoc]

/-- An A register with the half that the word offset names written. -/
def writtenA (o : Nat) (v : Word) (a : BitVec 48) : BitVec 48 :=
  if o % 2 = 0 then (fld a 32 16 : BitVec 16) ++ v else (fld v 0 16 : BitVec 16) ++ (fld a 0 32 : BitVec 32)

theorem writtenA_low (o : Nat) (v : Word) (a : BitVec 48) :
    (writtenA o v a).extractLsb' 0 32 = if o % 2 = 0 then v else a.extractLsb' 0 32 := by
  unfold writtenA
  split
  · exact BitVec.extractLsb'_append_eq_right
  · exact BitVec.extractLsb'_append_eq_right

theorem writtenA_high (o : Nat) (v : Word) (a : BitVec 48) :
    (writtenA o v a).extractLsb' 32 16 = if o % 2 = 0 then a.extractLsb' 32 16 else v.extractLsb' 0 16 := by
  unfold writtenA
  split
  · exact BitVec.extractLsb'_append_eq_left
  · exact BitVec.extractLsb'_append_eq_left

/-- The context that an accepted write of CH_ENTRY, an A or an L register leaves, by the word offset in the channel's block. -/
def writtenContext (s : State) (o : Nat) (v : Word) (c : Channel) : Channel :=
  if o < 8 then (if c.assigned then { c with entry := entryWrite s c (o == 5) v } else c)
  else if o < 16 then { c with a := setReg4 c.a ((o - 8) / 2) (writtenA o v (reg4 c.a ((o - 8) / 2))) }
  else { c with l := setReg4 c.l (o - 16) v }

/-- CH_ENTRY, A0 to A3 and L0 to L3 in a channel's block (04 Table 4.1). -/
def contextOffset (o : Nat) : Prop := o = 4 ∨ o = 5 ∨ (8 ≤ o ∧ o < 20)

theorem contextOffset_iff {o : Nat} : contextOffset o ↔ (o = 4 ∨ o = 5) ∨ (8 ≤ o ∧ o < 16) ∨ (16 ≤ o ∧ o < 20) := by
  unfold contextOffset
  omega

theorem ne_of_contextOffset {o : Nat} (h : contextOffset o) : o ≠ 0 ∧ o ≠ 2 := by
  unfold contextOffset at h
  omega

/-- Channel `ch` has become `c`; nothing but it and the configuration port has changed. -/
def Becomes (ch : Nat) (c : Channel) (s t : State) : Prop :=
  chan t ch = c ∧ KeepsOthers ch s t ∧ ∃ p cs, t = { s with cfg := p, chans := cs }

theorem becomes_refl (ch : Nat) (s : State) : Becomes ch (chan s ch) s s := ⟨rfl, fun _ _ => rfl, s.cfg, s.chans, rfl⟩

theorem becomes_setChan (ch : Nat) (c : Channel) (p : HostPort) (s : State) :
    Becomes ch c s (setChan ch c { s with cfg := p }) :=
  ⟨chan_setChan_self _ _ _, fun _ hk => chan_setChan_ne _ _ hk, p, put {} s.chans ch c, rfl⟩

section
variable {s : State} {ch o : Nat} (v : Word) (ho : contextOffset o)
include ho

theorem writeChan_of_closed (hclosed : openToHost s (chan s ch) = false) : writeChan ch o v s = s := by
  obtain ⟨h0, h2⟩ := ne_of_contextOffset ho
  simp [writeChan, hclosed, h0, h2]

/-- A write that a channel accepts leaves the written context. -/
theorem writeChan_of_open (hopen : openToHost s (chan s ch) = true) :
    Becomes ch (writtenContext s o v (chan s ch)) s (writeChan ch o v s) := by
  obtain ⟨h0, h2⟩ := ne_of_contextOffset ho
  obtain hentry | ⟨hlo, hhi⟩ | ⟨hlo, hhi⟩ := contextOffset_iff.mp ho
  case inl =>
    have hlt : o < 8 := by omega
    simp only [writeChan, writtenContext, h0, h2, hopen, hentry, hlt, if_true, if_false, Bool.not_true, Bool.false_eq_true]
    split
    · exact becomes_setChan ch _ s.cfg s
    · exact becomes_refl ch s
  case inr.inl =>
    have h45 : ¬(o = 4 ∨ o = 5) := by omega
    have hlt : ¬o < 8 := by omega
    simp only [writeChan, writtenContext, writtenA, h0, h2, hopen, h45, hlt, hlo, hhi, and_self, if_true, if_false,
      Bool.not_true, Bool.false_eq_true]
    exact becomes_setChan ch _ _ s
  case inr.inr =>
    have h45 : ¬(o = 4 ∨ o = 5) := by omega
    have hlt : ¬o < 8 := by omega
    have ha : ¬o < 16 := by omega
    simp only [writeChan, writtenContext, h0, h2, hopen, h45, hlt, ha, hlo, hhi, and_self, and_false, if_true, if_false,
      Bool.not_true, Bool.false_eq_true]
    exact becomes_setChan ch _ s.cfg s

theorem writtenContext_entry (c : Channel) : (writtenContext s o v c).entry =
    if c.assigned = true ∧ (o = 4 ∨ o = 5) then entryWrite s c (o == 5) v else c.entry := by
  obtain hentry | ⟨hlo, -⟩ | ⟨hlo, -⟩ := contextOffset_iff.mp ho
  case inl =>
    have hlt : o < 8 := by omega
    simp only [writtenContext, hlt, hentry, and_true, if_true]
    split <;> rfl
  all_goals
    have hlt : ¬o < 8 := by omega
    have h45 : ¬(o = 4 ∨ o = 5) := by omega
    simp only [writtenContext, hlt, h45, and_false, if_false]
    split <;> rfl

theorem writtenContext_l (c : Channel) {k : Nat} (hk : k < 4) :
    reg4 (writtenContext s o v c).l k = if o = 16 + k then v else reg4 c.l k := by
  obtain hentry | ⟨hlo, hhi⟩ | ⟨hlo, hhi⟩ := contextOffset_iff.mp ho
  case inl =>
    have hlt : o < 8 := by omega
    have hne : o ≠ 16 + k := by omega
    simp only [writtenContext, hlt, hne, if_true, if_false]
    split <;> rfl
  case inr.inl =>
    have hlt : ¬o < 8 := by omega
    have hne : o ≠ 16 + k := by omega
    simp only [writtenContext, hlt, hhi, hne, if_true, if_false]
  case inr.inr =>
    have hlt : ¬o < 8 := by omega
    have ha : ¬o < 16 := by omega
    have hreg : (k = o - 16) ↔ o = 16 + k := by omega
    have hj : o - 16 < 4 := by omega
    simp only [writtenContext, hlt, ha, if_false, reg4_setReg4 _ _ hj hk, hreg]

theorem writtenContext_a (c : Channel) {k : Nat} (hk : k < 4) :
    reg4 (writtenContext s o v c).a k = if o / 2 = 4 + k then writtenA o v (reg4 c.a k) else reg4 c.a k := by
  obtain hentry | ⟨hlo, hhi⟩ | ⟨hlo, hhi⟩ := contextOffset_iff.mp ho
  case inl =>
    have hlt : o < 8 := by omega
    have hne : o / 2 ≠ 4 + k := by omega
    simp only [writtenContext, hlt, hne, if_true, if_false]
    split <;> rfl
  case inr.inl =>
    have hlt : ¬o < 8 := by omega
    have hreg : (k = (o - 8) / 2) ↔ o / 2 = 4 + k := by omega
    have hj : (o - 8) / 2 < 4 := by omega
    simp only [writtenContext, hlt, hhi, if_true, if_false, reg4_setReg4 _ _ hj hk]
    by_cases h : k = (o - 8) / 2
    · rw [if_pos h, if_pos (hreg.mp h), h]
    · rw [if_neg h, if_neg (h ∘ hreg.mpr)]
  case inr.inr =>
    have hlt : ¬o < 8 := by omega
    have ha : ¬o < 16 := by omega
    have hne : o / 2 ≠ 4 + k := by omega
    simp only [writtenContext, hlt, ha, hne, if_false]

theorem writtenContext_aLow (c : Channel) {k : Nat} (hk : k < 4) : (reg4 (writtenContext s o v c).a k).extractLsb' 0 32 =
    if o = 8 + 2 * k then v else (reg4 c.a k).extractLsb' 0 32 := by
  rw [writtenContext_a v ho c hk]
  by_cases h : o / 2 = 4 + k
  · have hword : o % 2 = 0 ↔ o = 8 + 2 * k := by omega
    simp only [if_pos h, writtenA_low, hword]
  · have hne : o ≠ 8 + 2 * k := by omega
    rw [if_neg h, if_neg hne]

theorem writtenContext_aHigh (c : Channel) {k : Nat} (hk : k < 4) : (reg4 (writtenContext s o v c).a k).extractLsb' 32 16 =
    if o = 9 + 2 * k then v.extractLsb' 0 16 else (reg4 c.a k).extractLsb' 32 16 := by
  rw [writtenContext_a v ho c hk]
  by_cases h : o / 2 = 4 + k
  · have hword : o % 2 = 0 ↔ ¬o = 9 + 2 * k := by omega
    simp only [if_pos h, writtenA_high, hword, ite_not]
  · have hne : o ≠ 9 + 2 * k := by omega
    rw [if_neg h, if_neg hne]

end

/-- A write of a word of a per-channel block is performed where CORE runs. -/
theorem doWrite_chan {s : State} {ch o : Nat} (v : Word) (hon : coreOn s = true) (hch : ch < 1024) (ho : o < 32) :
    doWrite (0x20000 + 32 * ch + o) v s = writeChan ch o v (hostWrote (0x20000 + 32 * ch + o) s) := by
  have hon' : coreOn (hostWrote (0x20000 + 32 * ch + o) s) = true := hon
  have hao : heldInAo (0x20000 + 32 * ch + o) = false := by
    refine Bool.eq_false_iff.mpr fun h => ?_
    simp only [heldInAo, Bool.or_eq_true, Bool.and_eq_true, decide_eq_true_eq] at h
    omega
  have hctl : 0x20000 + 32 * ch + o ≠ 0x800 := by omega
  have htile : ¬0x30000 ≤ 0x20000 + 32 * ch + o := by omega
  have hblock : (0x20000 + 32 * ch + o - 0x20000) / 32 = ch := by omega
  have hword : (0x20000 + 32 * ch + o) % 32 = o := by omega
  have hreg : ∀ t, writeReg (0x20000 + 32 * ch + o) v t = writeChan ch o v t := by
    intro t
    unfold writeReg
    iterate 15 rw [if_neg (by omega)]
    rw [if_pos (by omega), hblock, hword]
  simp only [doWrite, hao, hctl, hon', htile, hreg, if_false, Bool.false_eq_true, Bool.not_true]

theorem exec_registerWrite_of_hostTurn {s : State} (h : hostTurn s = true) (a : BitVec 18) (v : Word) :
    exec (.registerWrite a v (accessParity true a v)) s = .next (doWrite a.toNat v (answer 0 false s)) :=
  calc exec (.registerWrite a v (accessParity true a v)) s
      = .next (hostAccess (.registerWrite a v (accessParity true a v))
          (effRegisterWrite a v (accessParity true a v)) s) := rfl
    _ = .next (doWrite a.toNat v (answer 0 false s)) := by
        rw [hostAccess_of_hostTurn h]
        simp [effRegisterWrite]

/-- The state in which a register write is performed: the access answered and the write noted (01 R21). -/
def takenWrite (w : Nat) (s : State) : State := hostWrote w (answer 0 false s)

@[simp] theorem chan_takenWrite (w : Nat) (s : State) (k : Nat) : chan (takenWrite w s) k = chan s k := rfl

theorem exec_registerWrite_chan {s : State} (h : hostTurn s = true) {ch : Chan} {o : Nat} {a : BitVec 18} (v : Word)
    (ha : a.toNat = 0x20000 + 32 * ch.toNat + o) (ho : o < 32) :
    exec (.registerWrite a v (accessParity true a v)) s = .next (writeChan ch.toNat o v (takenWrite a.toNat s)) := by
  have hon : coreOn (answer 0 false s) = true := coreOn_of_hostTurn (s := s) h
  rw [exec_registerWrite_of_hostTurn h, ha, doWrite_chan v hon ch.isLt ho]
  rfl

/-- Settles O38: `writeChan` on the state in which the write is performed, by the register that the word offset names. -/
theorem hostWritesNeedAStoppedChannel : Obligations.HostWritesNeedAStoppedChannel := by
  intro s ch o a v hturn ha ho
  rw [exec_registerWrite_chan hturn v ha (by omega)]
  refine ⟨fun hidle hhalted hparked hleft => ?closed, fun hstopped => ?accepted⟩
  case closed =>
    have hclosed : openToHost (takenWrite a.toNat s) (chan s ch.toNat) = false :=
      Bool.eq_false_iff.mpr fun h => by
        obtain h | h | h | h := openToHost_iff.mp h
        · exact hidle h
        · exact hhalted h
        · exact hparked h
        · exact hleft h
    rw [writeChan_of_closed v ho hclosed]
    exact ⟨_, rfl, rfl⟩
  case accepted =>
    have hopen : openToHost (takenWrite a.toNat s) (chan s ch.toNat) = true := openToHost_iff.mpr hstopped
    obtain ⟨hctx, hothers, p, cs, heq⟩ := writeChan_of_open v ho hopen
    refine ⟨_, rfl, hothers, by rw [heq]; rfl, ?_⟩
    rw [hctx]
    exact ⟨fun k hk => ⟨writtenContext_l v ho _ hk, writtenContext_aLow v ho _ hk, writtenContext_aHigh v ho _ hk⟩,
      writtenContext_entry v ho _⟩

end Sys2Proof.Machine
end

section
/-! PROOFS. The program store refuted to change by the listed commands alone (O5). A RESTRUCTURE that finds the SHA-256 unit in use waits in
the mailbox, its copy read (13 R346); where a channel has been started by the end of the rehash, it waits on until the engine is idle (log
entry 46), and the next edge of CFG_CLK loads the copy. No command is needed for that, and the configuration port offers none. -/

namespace Sys2Proof.Machine

/-! ### A valid copy without a program -/

/-- Sections: no channel, no mover reserved, port 0 in use, its window 0x1000 to 0x1FFF, standalone (12 Tables 12.3 to 12.7). -/
def bareSections : List Byte :=
  sectBytes 1 0 [] ++ sectBytes 2 1 (List.replicate 8 0) ++ sectBytes 3 8 (1 :: List.replicate 127 0) ++
  sectBytes 4 1 ([0, 0x10, 0, 0, 0, 0, 0, 0, 0xFF, 0x1F] ++ List.replicate 6 0) ++
  sectBytes 6 1 ([0, 0, 0, 0, 1, 0, 0, 0, 0, 1, 2] ++ List.replicate 13 0)

/-- The header for five sections, EPOCH and SEQ 0 (12 Table 12.1). -/
def bareHeader : List Byte :=
  leBytes 0x53424353 4 ++ [0, 1] ++ leBytes 5 2 ++ leBytes (32 + bareSections.length + 32) 4 ++ List.replicate 20 0

/-- The copy, its trailer the hash of what comes before (12 R311). -/
def bareCopy : CopyImage :=
  { bytes := bareHeader ++ bareSections ++ leBytes (sha256 (bareHeader ++ bareSections)).toNat 32, bad := [], ue := [] }

/-! ### The counterexample -/

/-- The block in RUN one ccyc before an edge of CFG_CLK, its engine idle and no rehash in service, with 1 in byte 0 of the program store
and a RESTRUCTURE that has waited with this copy. -/
def restructureHeldBack : State :=
  { State.reset with
    clk := { now := 3 }
    pwr := { State.reset.pwr with st := .run }
    prog := [(0, 1)]
    cmd := { opcode := 3, job := .restructureWait false bareCopy (.image bareCopy) 0 none } }

theorem readByte_restructureHeldBack : readByte restructureHeldBack.prog 0 = 1 := rfl

/-- The copy is loaded, and a word that no chunk of PROGRAM writes is 0 (12 R319). -/
theorem readByte_tick_restructureHeldBack : readByte (tick restructureHeldBack).prog 0 = 0 := by decide +kernel

/-! ### The obligation -/

/-- Refutes O5: the clause on the passing of time, at a state in which no access is offered and a RESTRUCTURE waits for nothing but the next
edge of CFG_CLK. -/
theorem not_onlyListedCommandsWriteTheProgramStore : ¬ Obligations.OnlyListedCommandsWriteTheProgramStore := by
  rintro ⟨-, htime⟩
  have hoffered : ∀ i ∈ restructureHeldBack.cfg.offered, Safety.writesStore i = false := List.forall_mem_nil _
  have hkept : readByte (tick restructureHeldBack).prog 0 = readByte restructureHeldBack.prog 0 :=
    htime restructureHeldBack 0 hoffered
  rw [readByte_tick_restructureHeldBack, readByte_restructureHeldBack] at hkept
  exact absurd hkept (by decide)

end Sys2Proof.Machine
end

section
/-! PROOFS. Accesses of a mover and of a fetch (O27): SLOT_RESERVE (06 R167, R176), READ_ISSUE (06 R167; 04 R105) and WRITE_LAUNCH (06 R174).
Each is one equation, with the conditions under which it is due: a new run of the channel, a request registered on one port, or both. -/

namespace Sys2Proof.Machine

open Sys2Proof.Safety

/-! ### The run of a channel replaced -/

/-- Channel `ch` goes on with the run `r`. -/
def withRun (ch : Nat) (r : Run) (s : State) : State := updChan ch (fun c => { c with run := some r }) s

section
variable (ch : Nat) (r : Run) (s : State)

theorem chan_withRun_self : chan (withRun ch r s) ch = { chan s ch with run := some r } := chan_updChan_self s ch _

theorem onlyChannel_withRun : OnlyChannel ch s (withRun ch r s) := onlyChannel_setChan ch _ s

@[simp] theorem port_withRun (n : Nat) : port (withRun ch r s) n = port s n := rfl

end

/-! ### A request registered (07 R192) -/

section
variable (n : Nat) (q : Request) (s : State)

@[simp] theorem chan_register (k : Nat) : chan (register n q s) k = chan s k := rfl

theorem onlyPort_register : OnlyPort n s (register n q s) := onlyPort_setPort n _ s

theorem port_register_self : port (register n q s) n = { port s n with reqs := (port s n).reqs ++ [q] } := port_updPort_self s n _

end

/-! ### The mover at work -/

theorem boundWork_of_workOf {s : State} {m : Nat} {w : Nat × Run} (h : workOf s m = some w) :
    boundWork s m = some w ∧ stopping (chan s w.1) = false := by
  simpa [workOf, Option.filter_eq_some_iff] using h

/-- A channel that no fault is about to stop may launch what its mover has ready. -/
theorem launchWork_of_workOf {s : State} {m : Nat} {w : Nat × Run} (h : workOf s m = some w) : launchWork s m = some w := by
  obtain ⟨hbound, hstop⟩ := boundWork_of_workOf h
  have hheld : (chan s w.1).held = none := by simpa [stopping] using hstop
  simp [launchWork, hbound, hheld]

/-! ### SLOT_RESERVE -/

/-- The run once it has reserved its next destination access in the ccyc `now`: a part to be sent again first (06 R176). -/
def reservedRun (tag : Tag) (now : Nat) (r : Run) : Run :=
  match r.resend with
  | (u, n, first) :: rest =>
    { r with resend := rest
             slots := r.slots ++ [{ tag := tag, unit := u, len := n, whole := true, since := now, first := first }] }
  | [] =>
    { r with resv := r.resv + dstLen r.geo r.resv
             slots := r.slots ++ [{ tag := tag, unit := r.resv, len := dstLen r.geo r.resv, since := now }] }

theorem canReserve_iff {s : State} {ch : Nat} {r : Run} {tag : Tag} : canReserve s ch r tag = true ↔
    (r.resend ≠ [] ∨ r.resv < units r.geo) ∧ r.slots.length < 8 ∧ tagPermitted (chan s ch) tag (writeTagFree s r.geo.dport) = true := by
  simp [canReserve, and_assoc]

theorem exec_slotReserve {s : State} {m : MoverNo} {tag : Tag} {ch : Nat} {r : Run} (hwork : workOf s m.toNat = some (ch, r))
    (hcan : canReserve s ch r tag = true) : exec (.slotReserve m tag) s = .next (withRun ch (reservedRun tag s.clk.now r) s) :=
  calc exec (.slotReserve m tag) s = execSlotReserve m tag s := rfl
    _ = .next (withRun ch (reservedRun tag s.clk.now r) s) := by
      simp only [execSlotReserve, hwork, hcan, if_true]
      rfl

/-! ### READ_ISSUE of a mover -/

/-- The next read of the MOVE (06 R167). -/
def nextReadOf (s : State) (ch : Nat) (r : Run) : Nat × BitVec 3 × Nat × Nat :=
  nextRead r.geo (readCursor s ch r) (elemsUpTo r.geo r.resv)

/-- The request for it. -/
def moverRead (s : State) (m : MoverNo) (tag : Tag) (ch : Nat) (r : Run) : Request :=
  { who := .mover m, ch := ch, write := false, addr := BitVec.ofNat 48 (nextReadOf s ch r).1, size := (nextReadOf s ch r).2.1,
    len := (nextReadOf s ch r).2.2.1, tag := tag, time := s.clk.now, lo := readCursor s ch r, hi := (nextReadOf s ch r).2.2.2 }

/-- The mover may register the next read of the MOVE: elements of reserved slots are still to be read, no further slot can be reserved, and
no write is ready for the same port (06 R167; 07 R192). -/
structure ReadDue (s : State) (m : MoverNo) (tag : Tag) (ch : Nat) (r : Run) : Prop where
  work : workOf s m.toNat = some (ch, r)
  move : r.geo.imm = none
  unread : readCursor s ch r < elemsUpTo r.geo r.resv
  enabled : (port s r.geo.sport).en = true
  unasked : hasRequest s r.geo.sport (.mover m) = false
  tagFree : tagPermitted (chan s ch) tag (readTagFree s r.geo.sport) = true
  full : ∀ t : Tag, canReserve s ch r t = false
  noWrite : r.geo.sport = r.geo.dport → ∀ sl ∈ r.slots, launchable s r sl = none
  opened : closedTo s (chan s ch) (nextReadOf s ch r).1 = false

theorem issueRead_of_readDue {s : State} {m : MoverNo} {tag : Tag} {ch : Nat} {r : Run} (h : ReadDue s m tag ch r) :
    issueRead m tag s = register r.geo.sport (moverRead s m tag ch r) s := by
  have hfull : ((List.range 64).any fun t => canReserve s ch r (BitVec.ofNat 6 t)) = false :=
    List.any_eq_false.mpr fun t _ => Bool.eq_false_iff.mp (h.full _)
  have hwrite : (r.geo.sport == r.geo.dport && r.slots.any fun sl => (launchable s r sl).isSome) = false := by
    by_cases hport : r.geo.sport = r.geo.dport
    · have hnone : (r.slots.any fun sl => (launchable s r sl).isSome) = false :=
        List.any_eq_false.mpr fun sl hsl => by simp [h.noWrite hport sl hsl]
      rw [hnone, Bool.and_false]
    · rw [beq_false_of_ne hport, Bool.false_and]
  have hunread : decide (elemsUpTo r.geo r.resv ≤ readCursor s ch r) = false := decide_eq_false (Nat.not_le.mpr h.unread)
  have hopen := h.opened
  unfold nextReadOf at hopen
  simp only [issueRead, h.work, h.move, hunread, h.enabled, h.unasked, h.tagFree, hfull, hwrite, hopen, Option.isSome_none, Bool.not_true,
    Bool.or_self, Bool.false_eq_true, if_false]
  rfl

/-! ### READ_ISSUE of a fetch -/

/-- The request for the one beat of a fetch group (04 R105). -/
def fetchRead (s : State) (ch : Chan) (tag : Tag) (g : Addr) : Request :=
  { who := .fetch ch, ch := ch.toNat, write := false, addr := g, size := 5, len := 1, tag := tag, time := s.clk.now, lo := 0, hi := 0 }

/-- The channel waits for the group `g`, and may register its read on the fetch port `n`, once for the wait (04 R105). -/
structure FetchDue (s : State) (ch : Chan) (tag : Tag) (g : Addr) (n : Nat) : Prop where
  on : coreOn s = true
  group : fetchGroup s (chan s ch.toNat) = some g
  fetchPort : fetchPort s = some n
  unheld : (chan s ch.toNat).held = none
  unfetched : (chan s ch.toNat).fetched = false
  enabled : (port s n).en = true
  unasked : hasRequest s n (.fetch ch) = false
  tagFree : tagPermitted (chan s ch.toNat) tag (readTagFree s n) = true
  opened : closedTo s (chan s ch.toNat) g.toNat = false

/-- The channel has registered the read of its group. -/
def markFetched (ch : Nat) (s : State) : State := setChan ch { chan s ch with fetched := true } s

theorem chan_markFetched_self (ch : Nat) (s : State) : chan (markFetched ch s) ch = { chan s ch with fetched := true } :=
  chan_setChan_self s ch _

theorem onlyChannel_markFetched (ch : Nat) (s : State) : OnlyChannel ch s (markFetched ch s) := onlyChannel_setChan ch _ s

@[simp] theorem port_markFetched (ch : Nat) (s : State) (n : Nat) : port (markFetched ch s) n = port s n := rfl

theorem issueFetch_of_fetchDue {s : State} {ch : Chan} {tag : Tag} {g : Addr} {n : Nat} (h : FetchDue s ch tag g n) :
    issueFetch ch tag s = register n (fetchRead s ch tag g) (markFetched ch.toNat s) := by
  have hstop : stopping (chan s ch.toNat) = false := by rw [stopping, h.unheld, Option.isSome_none]
  simp only [issueFetch, h.on, h.group, h.fetchPort, hstop, h.unfetched, h.enabled, h.unasked, h.tagFree, h.opened, Bool.not_true,
    Bool.or_self, Bool.false_eq_true, if_false]
  rfl

/-! ### WRITE_LAUNCH -/

/-- The run with a slot launched, under cut-through or not. -/
def launchedRun (r : Run) (sl : Slot) (cut : Bool) : Run := putSlot r { sl with launched := true, cut := cut } false

/-- The request for the write of a slot (06 R174). -/
def moverWrite (s : State) (m : MoverNo) (tag : Tag) (ch : Nat) (r : Run) (sl : Slot) : Request :=
  { who := .mover m, ch := ch, write := true, addr := BitVec.ofNat 48 (dstAddr r.geo sl.unit), size := dstSize r.geo, len := sl.len,
    tag := tag, time := launchTime s ch r, lo := sl.unit, hi := 0 }

/-- The mover may register the write of the slot `sl`: its beats are there and sound, and neither a brown-out nor a closed domain stops it
(06 R174, R178; 14 R366, R370). -/
structure LaunchDue (s : State) (m : MoverNo) (tag : Tag) (ch : Nat) (r : Run) (sl : Slot) (cut : Bool) : Prop where
  work : workOf s m.toNat = some (ch, r)
  slot : r.slots.find? (fun x => x.tag == tag) = some sl
  ready : launchable s r sl = some cut
  enabled : (port s r.geo.dport).en = true
  unasked : hasRequest s r.geo.dport (.mover m) = false
  sound : rebuildBad r sl cut = none
  noBrownout : s.mon.nvStop = true → inNV s (BitVec.ofNat 48 (dstAddr r.geo sl.unit)).toNat = false
  opened : closedTo s (chan s ch) (BitVec.ofNat 48 (dstAddr r.geo sl.unit)).toNat = false

theorem exec_writeLaunch_of_launchDue {s : State} {m : MoverNo} {tag : Tag} {ch : Nat} {r : Run} {sl : Slot} {cut : Bool}
    (h : LaunchDue s m tag ch r sl cut) : exec (.writeLaunch m tag) s =
      .next (register r.geo.dport (moverWrite s m tag ch r sl) (withRun ch (launchedRun r sl cut) s)) := by
  have hstop : stopping (chan s ch) = false := (boundWork_of_workOf h.work).2
  have hnv : (s.mon.nvStop && inNV s (BitVec.ofNat 48 (dstAddr r.geo sl.unit)).toNat) = false := by
    cases hmon : s.mon.nvStop with
    | false => rfl
    | true => exact h.noBrownout hmon
  calc exec (.writeLaunch m tag) s = execWriteLaunch m tag s := rfl
    _ = .next (register r.geo.dport (moverWrite s m tag ch r sl) (withRun ch (launchedRun r sl cut) s)) := by
      simp only [execWriteLaunch, launchWork_of_workOf h.work, h.slot, h.ready, h.enabled, h.unasked, hstop, h.sound, hnv, h.opened,
        Bool.not_true, Bool.or_self, Bool.false_eq_true, if_false]
      rfl

/-! ### The obligation -/

/-- Settles O27: each clause is the equation of its command, with the frames of a run replaced and of a request registered. -/
theorem accessesAreRegistered : Obligations.AccessesAreRegistered := by
  refine ⟨?reserve, ?read, ?fetch, ?launch⟩
  case reserve =>
    intro s m tag ch r hwork hroom htag
    have reserves (hleft : r.resend ≠ [] ∨ r.resv < units r.geo) : ∃ t, exec (.slotReserve m tag) s = .next t ∧ OnlyChannel ch s t ∧
        { chan t ch with run := none } = { chan s ch with run := none } ∧ (chan t ch).run = some (reservedRun tag s.clk.now r) := by
      refine ⟨_, exec_slotReserve hwork (canReserve_iff.mpr ⟨hleft, hroom, htag⟩), onlyChannel_withRun _ _ _, ?_, ?_⟩ <;>
        rw [chan_withRun_self]
    refine ⟨fun hnone hunits => ?_, fun u n k rest hsome => ?_⟩
    · simpa only [reservedRun, hnone] using reserves (.inr hunits)
    · simpa only [reservedRun, hsome] using reserves (.inl (by simp [hsome]))
  case read =>
    intro s m tag ch r hwork himm hunread hen hunasked htag hfull hwrite hopen
    have hdue : ReadDue s m tag ch r := ⟨hwork, himm, hunread, hen, hunasked, htag, hfull, hwrite, hopen⟩
    have hexec : exec (.readIssue (.mover m) tag) s = .next (register r.geo.sport (moverRead s m tag ch r) s) :=
      congrArg Host.Outcome.next (issueRead_of_readDue hdue)
    have haddr : (moverRead s m tag ch r).addr.toNat = (nextReadOf s ch r).1 % 2 ^ 48 := BitVec.toNat_ofNat _ _
    refine ⟨_, moverRead s m tag ch r, hexec, onlyPort_register _ _ _, ?_, ?_, rfl, rfl, rfl, rfl, rfl, ?_⟩
    · rw [port_register_self]
    · rw [port_register_self]
    · rw [haddr]
      rfl
  case fetch =>
    intro s ch tag g n hon hgroup hport hheld hfetched hen hunasked htag hopen
    have hdue : FetchDue s ch tag g n := ⟨hon, hgroup, hport, hheld, hfetched, hen, hunasked, htag, hopen⟩
    have hexec : exec (.readIssue (.fetch ch) tag) s = .next (register n (fetchRead s ch tag g) (markFetched ch.toNat s)) :=
      congrArg Host.Outcome.next (issueFetch_of_fetchDue hdue)
    obtain ⟨hothers, -⟩ := onlyChannel_markFetched ch.toNat s
    obtain ⟨hports, -⟩ := onlyPort_register n (fetchRead s ch tag g) (markFetched ch.toNat s)
    refine ⟨_, fetchRead s ch tag g, hexec, chan_markFetched_self _ _, ?_, rfl, rfl, rfl, rfl, rfl, rfl, hothers, hports, rfl⟩
    rw [port_register_self, port_markFetched]
  case launch =>
    intro s m tag ch r sl cut hwork hslot hready hen hunasked hsound hnv hopen
    have hdue : LaunchDue s m tag ch r sl cut := ⟨hwork, hslot, hready, hen, hunasked, hsound, hnv, hopen⟩
    have hrun := chan_withRun_self ch (launchedRun r sl cut) s
    obtain ⟨hothers, -⟩ := onlyChannel_withRun ch (launchedRun r sl cut) s
    obtain ⟨hports, -⟩ := onlyPort_register r.geo.dport (moverWrite s m tag ch r sl) (withRun ch (launchedRun r sl cut) s)
    refine ⟨_, moverWrite s m tag ch r sl, exec_writeLaunch_of_launchDue hdue, ?_, rfl, rfl, rfl, rfl, rfl, rfl, rfl, ?_, ?_, hothers,
      hports, rfl⟩
    · rw [port_register_self, port_withRun]
    · rw [chan_register, hrun]
      rfl
    · rw [chan_register, hrun]

end Sys2Proof.Machine
end

section
/-! PROOFS. Peg commits (O40): what a write of PEG_COMMIT leaves pending, and what the wrap brings into force (07 R202; 13 R339). -/

namespace Sys2Proof.Machine

open Sys2Proof.Safety

/-! ### A write of PEG_COMMIT -/

theorem commitWrap_bounds (s : State) :
    commitWrap s % 128 = 0 ∧ coreCycle s + 4 ≤ commitWrap s ∧ commitWrap s < coreCycle s + 132 := by
  unfold commitWrap alignUp ceilDiv
  omega

theorem pegCommitWrite_of_nothing (armed : Bool) (s : State) : pegCommitWrite 0 false armed s = s := by
  simp [pegCommitWrite]

/-- A write that names something joins the commit of its wrap, or forms one: the list of commits then has one that covers it. -/
theorem pegCommitWrite_of_named {ports : BitVec 8} {prio : Bool} (h : ports ≠ 0 ∨ prio = true) (armed : Bool) (s : State) :
    ∃ cs, pegCommitWrite ports prio armed s = { s with pegCommits := cs } ∧
      ∃ c ∈ cs, c.wrap = commitWrap s ∧ (∀ n, ports.getLsbD n = true → c.ports.getLsbD n = true) ∧ (prio = true → c.prio = true) := by
  have hnamed : ¬(ports = 0 ∧ prio = false) := by
    rintro ⟨hports, hprio⟩
    exact h.elim (· hports) (Bool.eq_false_iff.mp hprio)
  simp only [pegCommitWrite, if_neg hnamed]
  split
  case isTrue hany =>
    obtain ⟨c, hc, hwrap⟩ := List.any_eq_true.mp hany
    have hwrap : c.wrap = commitWrap s := beq_iff_eq.mp hwrap
    refine ⟨_, rfl, _, List.mem_map.mpr ⟨c, hc, if_pos hwrap⟩, hwrap, fun n hn => ?_, fun hp => ?_⟩
    · rw [BitVec.getLsbD_or, hn, Bool.or_true]
    · rw [hp, Bool.or_true]
  case isFalse =>
    exact ⟨_, rfl, _, List.mem_append_right _ (List.mem_singleton_self _), rfl, fun _ hn => hn, id⟩

theorem exec_pegCommit_of_hostTurn {s : State} (h : hostTurn s = true) (ports : BitVec 8) (prio : Bool) :
    exec (.pegCommit ports prio) s = .next (pegCommitWrite ports prio false (answer 0 false s)) :=
  calc exec (.pegCommit ports prio) s = .next (hostAccess (.pegCommit ports prio) (effPegCommit ports prio) s) := rfl
    _ = .next (effPegCommit ports prio (answer 0 false s)) := by rw [hostAccess_of_hostTurn h]
    _ = .next (pegCommitWrite ports prio false (answer 0 false s)) := by
        have hon : coreOn (answer 0 false s) = true := coreOn_of_hostTurn (s := s) h
        rw [effPegCommit, if_pos hon]

/-! ### The pegs of a commit -/

/-- The active pegs once those of port `n` have been taken from `pegs`. -/
def portPegs (pegs : Table (BitVec 16)) (act : Table (BitVec 16)) (n : Nat) : Table (BitVec 16) :=
  (List.range 64).foldl (fun a k => put 0 a (pegKey n k) (get 0 pegs (pegKey n k))) act

/-- The active pegs once those of each port in `l` that `ports` names have been taken from `pegs`. -/
def committedPegs (ports : BitVec 8) (pegs : Table (BitVec 16)) (l : List Nat) (act : Table (BitVec 16)) : Table (BitVec 16) :=
  l.foldl (fun a n => if ports.getLsbD n then portPegs pegs a n else a) act

theorem get_foldl_copy (pegs : Table (BitVec 16)) (n : Nat) (l : List Nat) (act : Table (BitVec 16)) (i : Nat) :
    get 0 (l.foldl (fun a k => put 0 a (pegKey n k) (get 0 pegs (pegKey n k))) act) i =
      if i ∈ l.map (pegKey n) then get 0 pegs i else get 0 act i := by
  induction l generalizing act with
  | nil => simp
  | cons k r ih =>
    rw [List.foldl_cons, ih, get_put]
    by_cases hi : i = pegKey n k
    · simp [hi]
    · simp [hi]

theorem mem_pegKeys {n i : Nat} : i ∈ (List.range 64).map (pegKey n) ↔ i / 64 = n := by
  simp only [List.mem_map, List.mem_range, pegKey]
  constructor
  · rintro ⟨k, hk, rfl⟩
    omega
  · rintro rfl
    exact ⟨i % 64, Nat.mod_lt _ (by decide), by omega⟩

theorem get_portPegs (pegs act : Table (BitVec 16)) (n i : Nat) :
    get 0 (portPegs pegs act n) i = if i / 64 = n then get 0 pegs i else get 0 act i := by
  simp only [portPegs, get_foldl_copy, mem_pegKeys]

theorem get_committedPegs (ports : BitVec 8) (pegs : Table (BitVec 16)) (l : List Nat) (act : Table (BitVec 16)) (i : Nat) :
    get 0 (committedPegs ports pegs l act) i =
      if i / 64 ∈ l ∧ ports.getLsbD (i / 64) = true then get 0 pegs i else get 0 act i := by
  induction l generalizing act with
  | nil => simp [committedPegs]
  | cons n r ih =>
    have hstep : committedPegs ports pegs (n :: r) act =
        committedPegs ports pegs r (if ports.getLsbD n then portPegs pegs act n else act) := rfl
    have hport : get 0 (if ports.getLsbD n then portPegs pegs act n else act) i =
        if i / 64 = n ∧ ports.getLsbD n = true then get 0 pegs i else get 0 act i := by
      by_cases hn : ports.getLsbD n = true
      · rw [if_pos hn, get_portPegs]
        simp only [hn, and_true]
      · rw [if_neg hn, if_neg (hn ·.2)]
    rw [hstep, ih, hport]
    by_cases hi : i / 64 = n
    · subst hi
      by_cases hn : ports.getLsbD (i / 64) = true <;> simp [hn]
    · simp [hi]

/-- Steps that change the active pegs only. -/
theorem foldl_pegAct {β : Type} (f : Table (BitVec 16) → β → Table (BitVec 16)) (l : List β) (s : State) :
    l.foldl (fun s b => { s with pegAct := f s.pegAct b }) s = { s with pegAct := l.foldl f s.pegAct } := by
  induction l generalizing s with
  | nil => rfl
  | cons b r ih => exact ih _

/-! ### The priorities of a commit -/

/-- The channels of `l` take their priorities from `prios`. -/
def commitPrios (prios : Table (BitVec 3)) (l : List Nat) (s : State) : State :=
  l.foldl (fun s ch => updChan ch (fun c => { c with prio := get 0 prios ch }) s) s

theorem chan_commitPrios (prios : Table (BitVec 3)) (l : List Nat) (s : State) (k : Nat) :
    chan (commitPrios prios l s) k = if k ∈ l then { chan s k with prio := get 0 prios k } else chan s k := by
  induction l generalizing s with
  | nil => simp [commitPrios]
  | cons ch r ih =>
    have hstep : commitPrios prios (ch :: r) s =
        commitPrios prios r (updChan ch (fun c => { c with prio := get 0 prios ch }) s) := rfl
    rw [hstep, ih]
    by_cases hk : k = ch
    · simp [hk]
    · simp [hk, chan_updChan_ne]

theorem onlyChans_commitPrios (prios : Table (BitVec 3)) (l : List Nat) (s : State) : OnlyChans s (commitPrios prios l s) := by
  induction l generalizing s with
  | nil => exact .refl s
  | cons ch r ih => exact (onlyChans_updChan ch _ s).trans (ih _)

/-- A channel whose priority is to change is listed, or stands in the table of priorities: all others read as at reset. -/
theorem chan_commitPrios_listed (prios : Table (BitVec 3)) (s : State) (k : Nat) :
    chan (commitPrios prios (s.chans.map (·.1) ++ prios.map (·.1)) s) k = { chan s k with prio := get 0 prios k } := by
  rw [chan_commitPrios]
  split
  case isTrue => rfl
  case isFalse hk =>
    obtain ⟨hchans, hprios⟩ := not_or.mp (mt List.mem_append.mpr hk)
    have hchan : chan s k = {} := (get_mem s.chans k).resolve_right fun h => hchans (List.mem_map_of_mem h)
    have hprio : get 0 prios k = 0 := (get_mem prios k).resolve_right fun h => hprios (List.mem_map_of_mem h)
    rw [hchan, hprio]

/-! ### A commit takes effect -/

/-- The shadows that a commit brings into force. -/
def takenBy (s : State) (c : PegCommit) : Table (BitVec 16) × Table (BitVec 3) := c.taken.getD (takeShadows s c)

/-- The state once the pegs of a commit are in force. -/
def commitPegs (ports : BitVec 8) (pegs : Table (BitVec 16)) (s : State) : State :=
  { s with pegAct := committedPegs ports pegs (List.range 8) s.pegAct }

theorem foldl_commitPegs (ports : BitVec 8) (pegs : Table (BitVec 16)) (s : State) :
    (List.range 8).foldl (fun s n => if ports.getLsbD n then
        (List.range 64).foldl (fun s k => { s with pegAct := put 0 s.pegAct (pegKey n k) (get 0 pegs (pegKey n k)) }) s
      else s) s = commitPegs ports pegs s := by
  have hport (u : State) (n : Nat) : (if ports.getLsbD n then
        (List.range 64).foldl (fun s k => { s with pegAct := put 0 s.pegAct (pegKey n k) (get 0 pegs (pegKey n k)) }) u
      else u) = { u with pegAct := if ports.getLsbD n then portPegs pegs u.pegAct n else u.pegAct } := by
    split
    · exact foldl_pegAct (fun a k => put 0 a (pegKey n k) (get 0 pegs (pegKey n k))) _ u
    · rfl
  simp only [hport]
  exact foldl_pegAct (fun a n => if ports.getLsbD n then portPegs pegs a n else a) _ s

theorem applyPegs_eq (c : PegCommit) (s : State) : applyPegs c s =
    if c.prio then commitPrios (takenBy s c).2 (s.chans.map (·.1) ++ (takenBy s c).2.map (·.1)) (commitPegs c.ports (takenBy s c).1 s)
    else commitPegs c.ports (takenBy s c).1 s := by
  obtain ⟨wrap, ports, prio, taken, armed, armedPrio, spoilt⟩ := c
  cases taken <;> (unfold applyPegs; dsimp only; rw [foldl_commitPegs]; rfl)

/-- A commit changes pegs in force and channels' priorities only. -/
theorem applyPegs_frame (c : PegCommit) (s : State) : ∃ pegs cs, applyPegs c s = { s with pegAct := pegs, chans := cs } := by
  rw [applyPegs_eq]
  split
  · obtain ⟨cs, hcs⟩ := onlyChans_commitPrios (takenBy s c).2 (s.chans.map (·.1) ++ (takenBy s c).2.map (·.1))
      (commitPegs c.ports (takenBy s c).1 s)
    exact ⟨_, cs, hcs⟩
  · exact ⟨_, s.chans, rfl⟩

theorem foldl_applyPegs_frame (l : List PegCommit) (s : State) :
    ∃ pegs cs, l.foldl (fun s c => applyPegs c s) s = { s with pegAct := pegs, chans := cs } := by
  induction l generalizing s with
  | nil => exact ⟨s.pegAct, s.chans, rfl⟩
  | cons c r ih =>
    obtain ⟨pegs, cs, hhead⟩ := applyPegs_frame c s
    obtain ⟨pegs', cs', htail⟩ := ih (applyPegs c s)
    exact ⟨pegs', cs', htail.trans (by rw [hhead])⟩

/-- The pegs in force after a commit: those taken for each port that it names, the others as they were. -/
theorem get_pegAct_applyPegs (c : PegCommit) (s : State) (i : Nat) : get 0 (applyPegs c s).pegAct i =
    if c.ports.getLsbD (i / 64) then get 0 (takenBy s c).1 i else get 0 s.pegAct i := by
  have hpegs : (applyPegs c s).pegAct = committedPegs c.ports (takenBy s c).1 (List.range 8) s.pegAct := by
    rw [applyPegs_eq]
    split
    · obtain ⟨cs, hcs⟩ := onlyChans_commitPrios (takenBy s c).2 (s.chans.map (·.1) ++ (takenBy s c).2.map (·.1))
        (commitPegs c.ports (takenBy s c).1 s)
      rw [hcs]
      rfl
    · rfl
  have hports : i / 64 ∈ List.range 8 ∧ c.ports.getLsbD (i / 64) = true ↔ c.ports.getLsbD (i / 64) = true :=
    and_iff_right_of_imp fun h => List.mem_range.mpr (BitVec.lt_of_getLsbD h)
  rw [hpegs, get_committedPegs]
  simp only [hports]

/-- The channels after a commit: with PRIO each has the priority taken for it. -/
theorem chan_applyPegs (c : PegCommit) (s : State) (k : Nat) : chan (applyPegs c s) k =
    if c.prio then { chan s k with prio := get 0 (takenBy s c).2 k } else chan s k := by
  rw [applyPegs_eq]
  split
  · exact chan_commitPrios_listed (takenBy s c).2 (commitPegs c.ports (takenBy s c).1 s) k
  · rfl

/-! ### The commit wrap -/

/-- What the wrap leaves before ARMED is looked at: the commits due are in force, and gone. -/
def wrapped (s : State) : State :=
  (s.pegCommits.filter (fun c => decide (c.wrap ≤ coreCycle s))).foldl (fun s c => applyPegs c s)
    { s with pegCommits := s.pegCommits.filter (fun c => decide (coreCycle s < c.wrap)) }

/-- A PEG_UPDATE in progress completes where its wrap has come (13 Table 13.8). -/
def endPegUpdate (s : State) : State :=
  match s.cmd.job with
  | .pegUpdate w _ _ => if w ≤ coreCycle s then finish 0 {} (bumpEpoch s) else s
  | _ => s

theorem exec_pegCommitWrap {s : State} (hon : coreOn s = true) (hdue : ∃ c ∈ s.pegCommits, c.wrap ≤ coreCycle s) :
    exec .pegCommitWrap s = .next (settleArmed (endPegUpdate (wrapped s))) := by
  have hne : s.pegCommits.filter (fun c => decide (c.wrap ≤ coreCycle s)) ≠ [] := by
    obtain ⟨c, hc, hwrap⟩ := hdue
    exact List.ne_nil_of_mem (List.mem_filter.mpr ⟨hc, decide_eq_true hwrap⟩)
  calc exec .pegCommitWrap s = execPegCommitWrap s := rfl
    _ = .next (settleArmed (endPegUpdate (wrapped s))) := congrArg Host.Outcome.next (if_pos ⟨hon, hne⟩)

/-- `settleArmed` lets ARMED fall, and changes nothing else. -/
theorem settleArmed_frame (s : State) : ∃ com, settleArmed s = { s with com := com } := by
  unfold settleArmed
  dsimp only
  split <;> split
  · exact ⟨_, rfl⟩
  · exact ⟨s.com, rfl⟩
  · exact ⟨_, rfl⟩
  · exact ⟨s.com, rfl⟩

theorem wrapped_frame (s : State) : ∃ pegs cs l, wrapped s = { s with pegAct := pegs, chans := cs, pegCommits := l } := by
  obtain ⟨pegs, cs, h⟩ := foldl_applyPegs_frame (s.pegCommits.filter (fun c => decide (c.wrap ≤ coreCycle s)))
    { s with pegCommits := s.pegCommits.filter (fun c => decide (coreCycle s < c.wrap)) }
  exact ⟨pegs, cs, _, h⟩

/-- The wrap of the one commit that is pending. -/
theorem wrapped_of_single {s : State} {c : PegCommit} (h : s.pegCommits = [c]) (hwrap : c.wrap ≤ coreCycle s) :
    wrapped s = applyPegs c { s with pegCommits := [] } := by
  have hnot : ¬ coreCycle s < c.wrap := Nat.not_lt.mpr hwrap
  simp only [wrapped, h, List.filter_cons, List.filter_nil, hwrap, hnot, decide_true, decide_false, Bool.false_eq_true, if_true,
    if_false, List.foldl_cons, List.foldl_nil]

theorem pegKey_div {n k : Nat} (hk : k < 64) : pegKey n k / 64 = n := by
  unfold pegKey
  omega

/-- Settles O40: a write by the commit that it leaves in the list, the wrap by what a commit brings into force and by the end of a
PEG_UPDATE. -/
theorem pegCommits : Obligations.PegCommits := by
  refine ⟨?write, ?wrap, ?update⟩
  case write =>
    intro s ports prio hturn
    rw [exec_pegCommit_of_hostTurn hturn]
    refine ⟨fun hnamed => ?_, ?_⟩
    · obtain ⟨cs, hwrite, c, hc, hwrap, hports, hprio⟩ := pegCommitWrite_of_named hnamed false (answer 0 false s)
      obtain ⟨hmod, hlo, hhi⟩ := commitWrap_bounds (answer 0 false s)
      rw [hwrite]
      exact ⟨_, rfl, rfl, c, hc, hwrap ▸ hmod, hwrap ▸ hlo, hwrap ▸ hhi, fun n _ => hports n, hprio⟩
    · rintro rfl rfl
      rw [pegCommitWrite_of_nothing]
  case wrap =>
    intro s c x hon hlist hwrap htaken hjob
    have hend : endPegUpdate (wrapped s) = applyPegs c { s with pegCommits := [] } := by
      obtain ⟨pegs, cs, l, hframe⟩ := wrapped_frame s
      have hcmd : (wrapped s).cmd.job = .none := by rw [hframe]; exact hjob
      rw [← wrapped_of_single hlist hwrap, endPegUpdate, hcmd]
    have htakes : takenBy { s with pegCommits := [] } c = x := by rw [takenBy, htaken]; rfl
    obtain ⟨pegs, cs, happly⟩ := applyPegs_frame c { s with pegCommits := [] }
    obtain ⟨com, hsettle⟩ := settleArmed_frame (applyPegs c { s with pegCommits := [] })
    have hpegs := fun i => get_pegAct_applyPegs c { s with pegCommits := [] } i
    have hchan := fun k => chan_applyPegs c { s with pegCommits := [] } k
    rw [htakes] at hpegs hchan
    rw [exec_pegCommitWrap hon ⟨c, by simp [hlist], hwrap⟩, hend, hsettle]
    refine ⟨_, rfl, ?_, ?_, fun n k _ hk => ?_, fun ch => ?_, fun ch => ?_, ?_⟩
    · rw [happly]
    · rw [happly]
    · exact (hpegs (pegKey n k)).trans (by rw [pegKey_div hk])
    · refine (congrArg Channel.prio (hchan ch)).trans ?_
      split <;> rfl
    · refine (congrArg (fun v : Channel => { v with prio := 0 }) (hchan ch)).trans ?_
      split <;> rfl
    · rw [happly]
      exact ⟨fun _ => rfl, fun _ => rfl⟩
  case update =>
    intro s w ports fromBuf hon hjob harmed hdue
    obtain ⟨pegs, cs, l, hframe⟩ := wrapped_frame s
    have hend : endPegUpdate (wrapped s) =
        if w ≤ coreCycle s then finish 0 {} (bumpEpoch (wrapped s)) else wrapped s := by
      have hcmd : (wrapped s).cmd.job = .pegUpdate w ports fromBuf := by rw [hframe]; exact hjob
      have hcycle : coreCycle (wrapped s) = coreCycle s := by rw [hframe]; rfl
      rw [endPegUpdate, hcmd, ← hcycle]
    rw [exec_pegCommitWrap hon hdue, hend]
    refine ⟨fun hcome => ?_, fun hlater => ?_⟩
    · obtain ⟨com, hsettle⟩ := settleArmed_frame (finish 0 {} (bumpEpoch (wrapped s)))
      rw [if_pos hcome, hsettle, hframe]
      exact ⟨_, rfl, ⟨rfl, rfl, rfl, rfl, rfl, rfl, rfl⟩, rfl, rfl, rfl, getLsbD_setCause_self _ (by decide),
        fun _ => rfl, fun _ => rfl⟩
    · obtain ⟨com, hsettle⟩ := settleArmed_frame (wrapped s)
      rw [if_neg (Nat.not_le.mpr hlater), hsettle, hframe]
      exact ⟨_, rfl, rfl, rfl, fun _ => rfl, fun _ => rfl⟩

end Sys2Proof.Machine
end

section
/-! PROOFS. CHANNEL_SELECT refuted (O25). The last clause of the statement, on a mover that is released to a victim with a held fault, speaks
of every state, also of one whose table of movers is not in canonical form (the clause on a mover that is bound asks for that form). There a
key can be listed twice: the release then frees the entry that is read (`mover_freed`), and the halt of the victim, which drops the victim's
claim and so builds the table anew, brings the other one back, where the statement has the mover free. -/

namespace Sys2Proof.Machine

open Sys2Proof.Safety

/-! ### The counterexample -/

/-- Channel 1 READY in a MOVE from which its mover was taken, with a fault held in an earlier ccyc. -/
def faultyVictim : Channel := { st := .ready, inMove := true, held := some { cause := .brownout } }

/-- Mover 0 twice: taken from channel 1, and, where no read of the table comes, bound to channel 3. -/
def moversListedTwice : Table Mover := [(0, { victim := some 1 }), (1, { ch := some 2 }), (0, { ch := some 3 })]

/-- The block in RUN in ccyc 1 with that channel and those movers. -/
def doublyListedMover : State :=
  { State.reset with
    clk := { now := 1 }
    pwr := { State.reset.pwr with st := .run }
    chans := [(1, faultyVictim)]
    movers := moversListedTwice }

theorem schedOn_doublyListedMover : schedOn doublyListedMover = true := rfl

theorem moverOf_doublyListedMover : moverOf doublyListedMover 1 = none := rfl

/-- Freeing mover 0 leaves it free to every read, with its second entry still listed. -/
theorem mover_freed : mover (setMover 0 {} doublyListedMover) 0 = {} := rfl

/-- The release halts the victim, and mover 0 is bound to channel 3. -/
theorem mover_releaseMover_doublyListed : mover (releaseMover 0 doublyListedMover) 0 = { ch := some 3 } := rfl

/-! ### The obligation -/

/-- Refutes O25: the clause on the release of a mover whose victim holds a fault, at a state that lists the mover twice, has the mover
free where it is bound. -/
theorem not_theSchedulerSelects : ¬ Obligations.TheSchedulerSelects := by
  rintro ⟨-, hselects⟩
  obtain ⟨-, -, -, hrelease⟩ := hselects doublyListedMover schedOn_doublyListedMover
  obtain ⟨hvictim, -⟩ := hrelease doublyListedMover 0
  obtain ⟨-, hfault⟩ := hvictim 1 rfl rfl rfl moverOf_doublyListedMover rfl
  obtain ⟨hfree, -⟩ := hfault (by decide)
  rw [mover_releaseMover_doublyListed] at hfree
  exact absurd (congrArg Mover.ch hfree) (by decide)

end Sys2Proof.Machine
end

section
/-! PROOFS. The choice of a port arbiter (07 R195, R196, R199, R201; 05 R139): the order in which requests are chosen, what the decision is in
each of its cases, and what presents. -/

namespace Sys2Proof.Machine

/-! ### Ranked lists -/

section
variable {β : Type} {better : β → β → Bool} {rank : β → Nat} (hrank : ∀ a b, better a b = decide (rank b < rank a))
include hrank

theorem pairwise_insertBy (x : β) {l : List β} (h : l.Pairwise fun a b => rank b ≤ rank a) :
    (insertBy better x l).Pairwise fun a b => rank b ≤ rank a := by
  induction l with
  | nil => exact List.pairwise_singleton _ _
  | cons y r ih =>
    obtain ⟨hhead, htail⟩ := List.pairwise_cons.mp h
    unfold insertBy
    split
    case isTrue hbetter =>
      have hlt : rank y < rank x := by simpa [hrank] using hbetter
      refine List.pairwise_cons.mpr ⟨fun z hz => ?_, h⟩
      obtain rfl | hz := List.mem_cons.mp hz
      · exact Nat.le_of_lt hlt
      · exact Nat.le_trans (hhead z hz) (Nat.le_of_lt hlt)
    case isFalse hbetter =>
      have hle : rank x ≤ rank y := by simpa [hrank] using hbetter
      refine List.pairwise_cons.mpr ⟨fun z hz => ?_, ih htail⟩
      obtain rfl | hz := mem_insertBy.mp hz
      · exact hle
      · exact hhead z hz

/-- Sorting by rank puts no element behind one of a lower rank. -/
theorem pairwise_sortBy (l : List β) : (sortBy better l).Pairwise fun a b => rank b ≤ rank a := by
  induction l with
  | nil => exact .nil
  | cons x r ih => exact pairwise_insertBy hrank x ih

/-- The head of a sorted list has the highest rank. -/
theorem rank_le_of_head?_sortBy {l : List β} {x y : β} (hx : (sortBy better l).head? = some x) (hy : y ∈ l) : rank y ≤ rank x := by
  obtain ⟨r, hr⟩ := List.head?_eq_some_iff.mp hx
  have hpairs := pairwise_sortBy hrank l
  rw [hr] at hpairs
  have hmem : y ∈ x :: r := hr ▸ mem_sortBy.mpr hy
  obtain rfl | hmem := List.mem_cons.mp hmem
  · exact Nat.le_refl _
  · exact (List.pairwise_cons.mp hpairs).1 y hmem

end

theorem bestBy_of_mem {β : Type} (better : β → β → Bool) {l : List β} {x : β} (h : x ∈ l) : ∃ y ∈ l, bestBy better l = some y := by
  suffices hne : bestBy better l ≠ none by
    obtain ⟨y, hy⟩ := Option.ne_none_iff_exists'.mp hne
    exact ⟨y, mem_bestBy hy, hy⟩
  cases l with
  | nil => exact absurd h List.not_mem_nil
  | cons y r =>
    unfold bestBy
    split
    · simp
    · split <;> simp

/-! ### The order of choice (07 R195) -/

/-- The channel of a request is URGENT. -/
def urgent (s : State) (q : Request) : Bool := (chan s q.ch).cls == .urgent

theorem urgent_iff {s : State} {q : Request} : urgent s q = true ↔ (chan s q.ch).cls = .urgent := beq_iff_eq

/-- The peg's owner, if it is among the requests, then the others by the background ranking. -/
def ownerFirst (above : Request → Request → Bool) (owner : Option Request) (l : List Request) : List Request :=
  (match owner with | some o => if l.contains o then [o] else [] | none => []) ++
    sortBy above (l.filter (fun q => some q != owner))

section
variable {above : Request → Request → Bool} {owner : Option Request} {l : List Request}

theorem ownerFirst_of_owner {o : Request} (h : o ∈ l) :
    ownerFirst above (some o) l = o :: sortBy above (l.filter (fun q => some q != some o)) := by
  simp [ownerFirst, h]

theorem ownerFirst_none : ownerFirst above none l = sortBy above l := by
  have hall : l.filter (fun q => some q != none) = l := List.filter_eq_self.mpr fun _ _ => rfl
  rw [ownerFirst, hall, List.nil_append]

theorem mem_ownerFirst {q : Request} : q ∈ ownerFirst above owner l ↔ q ∈ l := by
  cases owner with
  | none => rw [ownerFirst_none, mem_sortBy]
  | some o =>
    by_cases ho : o ∈ l
    · rw [ownerFirst_of_owner ho, List.mem_cons, mem_sortBy, List.mem_filter]
      by_cases hq : q = o
      · simp [hq, ho]
      · simp [hq]
    · have hne : q ∈ l → q ≠ o := fun hq he => ho (he ▸ hq)
      simp only [ownerFirst, List.contains_eq_mem, ho, decide_false, Bool.false_eq_true, if_false, List.nil_append, mem_sortBy,
        List.mem_filter]
      simpa using hne

end

section
variable {s : State} {above : Request → Request → Bool} {owner : Option Request} {v : List Request}

theorem choiceOrder_eq : choiceOrder s above owner v =
    ownerFirst above owner (v.filter (urgent s)) ++ ownerFirst above owner (v.filter (fun q => (chan s q.ch).cls != .urgent)) := rfl

theorem mem_choiceOrder {q : Request} : q ∈ choiceOrder s above owner v ↔ q ∈ v := by
  rw [choiceOrder_eq, List.mem_append, mem_ownerFirst, mem_ownerFirst, List.mem_filter, List.mem_filter]
  by_cases hu : (chan s q.ch).cls = .urgent <;> simp [urgent, hu]

/-- Without an URGENT request the order is that of all. -/
theorem choiceOrder_of_not_urgent (h : ∀ q ∈ v, (chan s q.ch).cls ≠ .urgent) :
    choiceOrder s above owner v = ownerFirst above owner v := by
  have hurg : v.filter (urgent s) = [] := List.filter_eq_nil_iff.mpr fun q hq hu => h q hq (urgent_iff.mp hu)
  have hrest : v.filter (fun q => (chan s q.ch).cls != .urgent) = v :=
    List.filter_eq_self.mpr fun q hq => bne_iff_ne.mpr (h q hq)
  have hnil : ownerFirst above owner [] = [] := List.eq_nil_iff_forall_not_mem.mpr fun q hq =>
    List.not_mem_nil (mem_ownerFirst.mp hq)
  rw [choiceOrder_eq, hurg, hrest, hnil, List.nil_append]

/-- An URGENT request that qualifies is found before any other. -/
theorem find?_choiceOrder_of_urgent {f : Request → Bool} {x : Request} (hx : x ∈ v) (hf : f x = true)
    (hu : (chan s x.ch).cls = .urgent) :
    ∃ q ∈ v, (choiceOrder s above owner v).find? f = some q ∧ (chan s q.ch).cls = .urgent := by
  have hmem : x ∈ ownerFirst above owner (v.filter (urgent s)) :=
    mem_ownerFirst.mpr (List.mem_filter.mpr ⟨hx, urgent_iff.mpr hu⟩)
  obtain ⟨q, hq⟩ := Option.isSome_iff_exists.mp (List.find?_isSome.mpr ⟨x, hmem, hf⟩)
  obtain ⟨hqv, hqu⟩ := List.mem_filter.mp (mem_ownerFirst.mp (List.mem_of_find?_eq_some hq))
  exact ⟨q, hqv, by rw [choiceOrder_eq, List.find?_append, hq]; rfl, urgent_iff.mp hqu⟩

theorem find?_choiceOrder {f : Request → Bool} {x : Request} (hx : x ∈ v) (hf : f x = true) :
    ∃ q ∈ v, (choiceOrder s above owner v).find? f = some q ∧ f q = true := by
  obtain ⟨q, hq⟩ := Option.isSome_iff_exists.mp (List.find?_isSome.mpr ⟨x, mem_choiceOrder.mpr hx, hf⟩)
  exact ⟨q, mem_choiceOrder.mp (List.mem_of_find?_eq_some hq), hq, List.find?_some hq⟩

theorem find?_choiceOrder_eq_none {f : Request → Bool} (h : ∀ x ∈ v, f x = false) :
    (choiceOrder s above owner v).find? f = none :=
  List.find?_eq_none.mpr fun x hx => Bool.eq_false_iff.mp (h x (mem_choiceOrder.mp hx))

/-- The head of the order is an URGENT request, where there is one. -/
theorem head?_choiceOrder_of_urgent {x : Request} (hx : x ∈ v) (hu : (chan s x.ch).cls = .urgent) :
    ∃ q ∈ v, (choiceOrder s above owner v).head? = some q ∧ (chan s q.ch).cls = .urgent := by
  obtain ⟨q, hq, hfind, hqu⟩ := find?_choiceOrder_of_urgent (f := fun _ => true) (above := above) (owner := owner) hx rfl hu
  refine ⟨q, hq, ?_, hqu⟩
  rw [← hfind, ← List.head?_filter, List.filter_eq_self.mpr fun _ _ => rfl]

/-- The owner of the peg is the head, unless an URGENT request comes before it. -/
theorem head?_choiceOrder_of_owner {o : Request} (ho : o ∈ v)
    (h : (chan s o.ch).cls = .urgent ∨ ∀ q ∈ v, (chan s q.ch).cls ≠ .urgent) :
    (choiceOrder s above (some o) v).head? = some o := by
  obtain hu | hnone := h
  · rw [choiceOrder_eq, ownerFirst_of_owner (List.mem_filter.mpr ⟨ho, urgent_iff.mpr hu⟩)]
    rfl
  · rw [choiceOrder_of_not_urgent hnone, ownerFirst_of_owner ho]
    rfl

end

/-! ### The decision (07 R195, R196) -/

/-- The background ranking as a number (07 Table 7.5). -/
def bgRank (s : State) (p : Port) (t : Nat) (q : Request) : Nat :=
  ((clsRank (chan s q.ch).cls * 8 + (prioAt s q.ch t).toNat) * 65536 + get 0 p.ages (reqKey q.who)) * 2048 + (2047 - reqKey q.who)

theorem bgAbove_eq (s : State) (p : Port) (t : Nat) (a b : Request) :
    bgAbove s p t a b = decide (bgRank s p t b < bgRank s p t a) := rfl

section
variable (s : State) (n : Nat) (p : Port) (v : List Request)

/-- The owner of the peg of the next port cycle among the requests. -/
def nextOwner : Option Request := pegOwner s (pegAt s n (nextCycle s p)) (bgAbove s p (nextCycle s p)) v

/-- The order of choice for the next port cycle. -/
def nextOrder : List Request := choiceOrder s (bgAbove s p (nextCycle s p)) (nextOwner s n p v) v

/-- The best of the URGENT requests. -/
def bestUrgent : Option Request := bestBy (bgAbove s p (nextCycle s p)) (v.filter (urgent s))

/-- What presents where `q` has the grant: it, or a request to which its cycle is lent. -/
def presented (q : Request) : Option Request := if eligible p q then some q else (nextOrder s n p v).find? (eligible p)

/-- The request of the holder, if it is visible. -/
def visibleHolder : Option Request :=
  match p.holder with
  | some h => v.find? (fun q => q.who == h)
  | none => none

/-- The request that is chosen (07 R195, R199). -/
def chosenRequest : Option Request :=
  match visibleHolder p v with
  | some q =>
    if (chan s q.ch).cls = .urgent then some q
    else match bestUrgent s p v with
      | some u => some u
      | none => some q
  | none => if chainAhead s n p then (if holderUrgent s p then none else bestUrgent s p v) else (nextOrder s n p v).head?

/-- The decision by the chosen request: it has the grant; without one the holder goes on where its PUTI follows (05 R139). -/
def decisionBy (chosen : Option Request) : Option Requester × Option Request :=
  if (visibleHolder p v).isNone && chosen.isNone && chainAhead s n p then (p.holder, (nextOrder s n p v).find? (eligible p))
  else match chosen with
    | none => (none, none)
    | some q => (some q.who, presented s n p v q)

theorem decidePort_eq : decidePort s n p v = decisionBy s n p v (chosenRequest s n p v) := rfl

@[simp] theorem decisionBy_some (q : Request) : decisionBy s n p v (some q) = (some q.who, presented s n p v q) := by
  simp [decisionBy]

end

section
variable {s : State} {n : Nat} {p : Port} {v : List Request}

theorem mem_of_pegOwner {peg : BitVec 16} {above : Request → Request → Bool} {o : Request} (h : pegOwner s peg above v = some o) :
    o ∈ v := by
  unfold pegOwner at h
  dsimp only at h
  split at h
  · split at h
    case h_1 q hq => exact Option.some.inj h ▸ (List.mem_filter.mp (List.mem_of_find?_eq_some hq)).1
    case h_2 => exact (List.mem_filter.mp (List.mem_of_head? h)).1
  · exact (List.mem_filter.mp (mem_bestBy h)).1
  · exact absurd h (by simp)

theorem bestUrgent_eq_none (h : ∀ q ∈ v, (chan s q.ch).cls ≠ .urgent) : bestUrgent s p v = none := by
  have hurg : v.filter (urgent s) = [] := List.filter_eq_nil_iff.mpr fun q hq hu => h q hq (urgent_iff.mp hu)
  rw [bestUrgent, hurg]
  rfl

theorem bestUrgent_eq_some {x : Request} (hx : x ∈ v) (hu : (chan s x.ch).cls = .urgent) :
    ∃ q ∈ v, bestUrgent s p v = some q ∧ (chan s q.ch).cls = .urgent := by
  obtain ⟨q, hq, hbest⟩ := bestBy_of_mem (bgAbove s p (nextCycle s p)) (List.mem_filter.mpr ⟨hx, urgent_iff.mpr hu⟩)
  obtain ⟨hqv, hqu⟩ := List.mem_filter.mp hq
  exact ⟨q, hqv, hbest, urgent_iff.mp hqu⟩

theorem mem_nextOrder {q : Request} : q ∈ nextOrder s n p v ↔ q ∈ v := mem_choiceOrder

theorem mem_of_presented {q x : Request} (hq : q ∈ v) (h : presented s n p v q = some x) : x ∈ v ∧ eligible p x = true := by
  unfold presented at h
  split at h
  case isTrue hel => exact Option.some.inj h ▸ ⟨hq, hel⟩
  case isFalse => exact ⟨mem_nextOrder.mp (List.mem_of_find?_eq_some h), List.find?_some h⟩

/-! ### The cases of the decision -/

/-- The holder is not among the requests, or there is none. -/
def HolderAbsent (p : Port) (v : List Request) : Prop := ∀ h, p.holder = some h → ∀ q ∈ v, q.who ≠ h

theorem visibleHolder_of_absent (h : HolderAbsent p v) : visibleHolder p v = none := by
  unfold visibleHolder
  split
  case h_1 r hr => exact List.find?_eq_none.mpr fun q hq he => h r hr q hq (beq_iff_eq.mp he)
  case h_2 => rfl

theorem visibleHolder_of_find {h : Requester} {q : Request} (hh : p.holder = some h) (hq : v.find? (fun x => x.who == h) = some q) :
    visibleHolder p v = some q := by
  rw [visibleHolder, hh]
  exact hq

theorem mem_of_visibleHolder {q : Request} (h : visibleHolder p v = some q) : q ∈ v := by
  unfold visibleHolder at h
  split at h
  · exact List.mem_of_find?_eq_some h
  · exact absurd h (by simp)

/-- What is chosen is among the requests. -/
theorem mem_of_chosenRequest {q : Request} (h : chosenRequest s n p v = some q) : q ∈ v := by
  unfold chosenRequest at h
  split at h
  case h_1 r hr =>
    have hmem : r ∈ v := mem_of_visibleHolder hr
    split at h
    · exact Option.some.inj h ▸ hmem
    · split at h
      case h_1 u hu => exact Option.some.inj h ▸ (List.mem_filter.mp (mem_bestBy hu)).1
      case h_2 => exact Option.some.inj h ▸ hmem
  case h_2 =>
    split at h
    · split at h
      · exact absurd h (by simp)
      · exact (List.mem_filter.mp (mem_bestBy h)).1
    · exact mem_nextOrder.mp (List.mem_of_head? h)

/-- What presents is visible and eligible. -/
theorem mem_of_decidePort {q : Request} (h : (decidePort s n p v).2 = some q) : q ∈ v ∧ eligible p q = true := by
  rw [decidePort_eq] at h
  cases hc : chosenRequest s n p v with
  | some r =>
    rw [hc, decisionBy_some] at h
    exact mem_of_presented (mem_of_chosenRequest hc) h
  | none =>
    rw [hc, decisionBy] at h
    split at h
    · exact ⟨mem_nextOrder.mp (List.mem_of_find?_eq_some h), List.find?_some h⟩
    · exact absurd h (by simp)

section
variable {q : Request} (hq : visibleHolder p v = some q)
include hq

/-- A visible holder that is URGENT, or has no URGENT request against it, keeps the grant. -/
theorem decidePort_of_holder (hkeep : (chan s q.ch).cls = .urgent ∨ ∀ x ∈ v, (chan s x.ch).cls ≠ .urgent) :
    decidePort s n p v = (some q.who, presented s n p v q) := by
  have hchosen : chosenRequest s n p v = some q := by
    rw [chosenRequest, hq]
    obtain hu | hnone := hkeep
    · simp [hu]
    · simp [bestUrgent_eq_none hnone]
  rw [decidePort_eq, hchosen, decisionBy_some]

/-- An URGENT request takes the grant of a visible holder that is not. -/
theorem decidePort_of_overtaken {u : Request} (hcls : (chan s q.ch).cls ≠ .urgent) (hu : bestUrgent s p v = some u) :
    decidePort s n p v = (some u.who, presented s n p v u) := by
  have hchosen : chosenRequest s n p v = some u := by
    rw [chosenRequest, hq]
    simp [hcls, hu]
  rw [decidePort_eq, hchosen, decisionBy_some]

end

section
variable (habsent : HolderAbsent p v)
include habsent

/-- A mover whose PUTI follows keeps the grant, if no URGENT request takes it (05 R139). -/
theorem decidePort_of_chain (hchain : chainAhead s n p = true)
    (hkeep : holderUrgent s p = true ∨ ∀ q ∈ v, (chan s q.ch).cls ≠ .urgent) :
    decidePort s n p v = (p.holder, (nextOrder s n p v).find? (eligible p)) := by
  have hheld := visibleHolder_of_absent habsent
  have hchosen : chosenRequest s n p v = none := by
    rw [chosenRequest, hheld]
    obtain hu | hnone := hkeep
    · simp [hchain, hu]
    · simp [hchain, bestUrgent_eq_none hnone]
  rw [decidePort_eq, hchosen]
  simp [decisionBy, hheld, hchain]

/-- Without one the head of the order of choice has the grant. -/
theorem decidePort_of_head (hchain : chainAhead s n p = false) {q : Request} (hq : (nextOrder s n p v).head? = some q) :
    decidePort s n p v = (some q.who, presented s n p v q) := by
  have hchosen : chosenRequest s n p v = some q := by
    rw [chosenRequest, visibleHolder_of_absent habsent]
    simp [hchain, hq]
  rw [decidePort_eq, hchosen, decisionBy_some]

/-- An URGENT request has the grant, unless a mover that is URGENT keeps it. -/
theorem decidePort_of_urgent (hloses : chainAhead s n p = false ∨ holderUrgent s p = false) {x : Request} (hx : x ∈ v)
    (hu : (chan s x.ch).cls = .urgent) : ∃ q ∈ v, (chan s q.ch).cls = .urgent ∧ (decidePort s n p v).1 = some q.who := by
  by_cases hchain : chainAhead s n p = true
  · have hloses : holderUrgent s p = false := hloses.resolve_left (by simp [hchain])
    obtain ⟨q, hq, hbest, hqu⟩ := bestUrgent_eq_some (p := p) hx hu
    have hchosen : chosenRequest s n p v = some q := by
      rw [chosenRequest, visibleHolder_of_absent habsent]
      simp [hchain, hloses, hbest]
    exact ⟨q, hq, hqu, by rw [decidePort_eq, hchosen, decisionBy_some]⟩
  · obtain ⟨q, hq, hhead, hqu⟩ := head?_choiceOrder_of_urgent (above := bgAbove s p (nextCycle s p))
      (owner := nextOwner s n p v) hx hu
    exact ⟨q, hq, hqu, by rw [decidePort_of_head habsent (Bool.eq_false_iff.mpr hchain) hhead]⟩

end

theorem decidePort_nil (hchain : chainAhead s n p = false) : decidePort s n p [] = (none, none) := by
  have hheld : visibleHolder p [] = none := visibleHolder_of_absent fun _ _ _ hq => absurd hq List.not_mem_nil
  have horder : nextOrder s n p [] = [] := List.eq_nil_iff_forall_not_mem.mpr fun q hq =>
    List.not_mem_nil (mem_nextOrder.mp hq)
  have hchosen : chosenRequest s n p [] = none := by simp [chosenRequest, hheld, hchain, horder]
  rw [decidePort_eq, hchosen]
  simp [decisionBy, hchain]

theorem decidePort_nil_of_chain (hchain : chainAhead s n p = true) : decidePort s n p [] = (p.holder, none) := by
  rw [decidePort_of_chain (fun _ _ _ hq => absurd hq List.not_mem_nil) hchain (.inr fun _ hq => absurd hq List.not_mem_nil)]
  exact congrArg (Prod.mk p.holder) (find?_choiceOrder_eq_none fun _ hq => absurd hq List.not_mem_nil)

/-- To whom a cycle is lent: to an eligible request, an URGENT one first. -/
theorem find?_nextOrder :
    ((∀ x ∈ v, eligible p x = false) → (nextOrder s n p v).find? (eligible p) = none) ∧
    ((∃ x ∈ v, eligible p x = true) → ∃ x ∈ v, (nextOrder s n p v).find? (eligible p) = some x ∧ eligible p x = true) ∧
    ((∃ x ∈ v, eligible p x = true ∧ (chan s x.ch).cls = .urgent) →
      ∃ x ∈ v, (nextOrder s n p v).find? (eligible p) = some x ∧ (chan s x.ch).cls = .urgent) :=
  ⟨find?_choiceOrder_eq_none, fun ⟨_, hx, hel⟩ => find?_choiceOrder hx hel,
    fun ⟨_, hx, hel, hu⟩ => find?_choiceOrder_of_urgent hx hel hu⟩

/-- Without a peg's owner and an URGENT request the grant goes by the background ranking. -/
theorem decidePort_of_background (habsent : HolderAbsent p v) (hchain : chainAhead s n p = false)
    (howner : nextOwner s n p v = none) (hnone : ∀ q ∈ v, (chan s q.ch).cls ≠ .urgent) (hne : v ≠ []) :
    ∃ q ∈ v, (decidePort s n p v).1 = some q.who ∧ ∀ x ∈ v, bgAbove s p (nextCycle s p) x q = false := by
  have horder : nextOrder s n p v = sortBy (bgAbove s p (nextCycle s p)) v := by
    rw [nextOrder, howner, choiceOrder_of_not_urgent hnone, ownerFirst_none]
  obtain ⟨x, hx⟩ := List.exists_mem_of_ne_nil v hne
  obtain ⟨q, hhead⟩ := Option.isSome_iff_exists.mp
    (List.isSome_head?.mpr (List.ne_nil_of_mem (mem_nextOrder.mpr hx : x ∈ nextOrder s n p v)))
  refine ⟨q, mem_nextOrder.mp (List.mem_of_head? hhead), by rw [decidePort_of_head habsent hchain hhead], fun y hy => ?_⟩
  rw [horder] at hhead
  rw [bgAbove_eq, decide_eq_false_iff_not, Nat.not_lt]
  exact rank_le_of_head?_sortBy (bgAbove_eq s p _) hhead hy

end

end Sys2Proof.Machine
end

section
/-! PROOFS. The row ARBITER_DECISION (07 R195 to R199, R205, R206; 17 R401): the decision as the port keeps it, and the ages of the
requesters that wait. -/

namespace Sys2Proof.Machine

open Sys2Proof.Safety

/-! ### The decision as the port keeps it -/

section
variable (d : Option Requester × Option Request) (t : Nat) (p : Port)

/-- The request that presents in the next port cycle: not one withdrawn in this ccyc (07 R197). -/
def grantOf (d : Option Requester × Option Request) : Option Request :=
  match d.2 with
  | some q => if q.gone then none else some q
  | none => none

/-- The registered requests without the granted one. -/
def ungranted (g : Option Request) (l : List Request) : List Request :=
  match g with
  | some q => l.filter (fun x => x != q)
  | none => l

theorem keepDecision_eq : keepDecision d false t p =
    { p with holder := d.1, decidedAt := some t, grant := grantOf d, reqs := ungranted (grantOf d) p.reqs } := by
  obtain ⟨h, g⟩ := d
  cases g with
  | none => rfl
  | some q =>
    by_cases hgone : q.gone = true <;> simp [keepDecision, grantOf, ungranted, hgone]

theorem keepDecision_frozen : keepDecision d true t p = { p with decidedAt := some t } := rfl

section
variable (frozen : Bool)

@[simp] theorem ages_keepDecision : (keepDecision d frozen t p).ages = p.ages := by
  cases frozen with
  | false => rw [keepDecision_eq]
  | true => rfl

@[simp] theorem starve_keepDecision : (keepDecision d frozen t p).starve = p.starve := by
  cases frozen with
  | false => rw [keepDecision_eq]
  | true => rfl

@[simp] theorem threshold_keepDecision : threshold (keepDecision d frozen t p) = threshold p := by
  cases frozen with
  | false => rw [keepDecision_eq]; rfl
  | true => rfl

end

end

/-! ### Growing older (07 R205, R206) -/

/-- PORT_STARVE as the request of a starving requester fills it. -/
def starveRecord (c : Cls) (q : Request) : Starve :=
  { valid := true, ch := BitVec.ofNat 10 q.ch, cls := clsCode c
    mover := match q.who with
      | .mover m => m
      | .fetch _ => 0
    fetch := match q.who with
      | .mover _ => false
      | .fetch _ => true }

/-- A port whose waiting requester has grown older. -/
def olderPort (q : Request) (p : Port) : Port :=
  { p with ages := put 0 p.ages (reqKey q.who) (min 65535 (get 0 p.ages (reqKey q.who) + 1)) }

/-- The requester's age becomes the threshold of its class. -/
def starves (s : State) (n : Nat) (q : Request) : Prop :=
  min 65535 (get 0 (port s n).ages (reqKey q.who) + 1) ≠ get 0 (port s n).ages (reqKey q.who) ∧
  min 65535 (get 0 (port s n).ages (reqKey q.who) + 1) = threshold (port s n) (chan s q.ch).cls

section
variable {n : Nat} {q : Request} {s : State}

theorem growOlder_of_not_starves (h : ¬ starves s n q) : growOlder n q s = setPort n (olderPort q (port s n)) s := if_neg h

theorem growOlder_of_starves (h : starves s n q) : growOlder n q s =
    if (port s n).starve.valid then setCause (16 + n) (setPort n (olderPort q (port s n)) s)
    else noteSet (0x1003 + 0x100 * n) 31 (updPort n (fun p => { p with starve := starveRecord (chan s q.ch).cls q })
      (setCause (16 + n) (setPort n (olderPort q (port s n)) s))) := if_pos h

/-- A requester that starves sets the cause of its port, and fills PORT_STARVE unless it holds a record. -/
theorem growOlder_starving (hn : n < 8) (h : starves s n q) :
    (growOlder n q s).irq.cause.getLsbD (16 + n) = true ∧
    (port (growOlder n q s) n).starve = if (port s n).starve.valid then (port s n).starve else starveRecord (chan s q.ch).cls q := by
  rw [growOlder_of_starves h]
  have hcause : (setCause (16 + n) (setPort n (olderPort q (port s n)) s)).irq.cause.getLsbD (16 + n) = true :=
    getLsbD_setCause_self _ (by omega)
  by_cases hvalid : (port s n).starve.valid = true
  · simp only [hvalid, if_true]
    exact ⟨hcause, by rw [port_setCause, port_setPort_self]; rfl⟩
  · simp only [hvalid, Bool.false_eq_true, if_false]
    exact ⟨hcause, by rw [port_noteSet, port_updPort_self]⟩

end

/-- Nothing has changed but interrupt causes and, on port `n`, ages and PORT_STARVE. -/
structure Aged (n : Nat) (s t : State) : Prop where
  port : ∃ a v, port t n = { port s n with ages := a, starve := v }
  others : ∀ k, k ≠ n → Machine.port t k = Machine.port s k
  frame : ∃ ps irq, t = { s with ports := ps, irq := irq }

theorem Aged.refl (n : Nat) (s : State) : Aged n s s :=
  ⟨⟨(Machine.port s n).ages, (Machine.port s n).starve, rfl⟩, fun _ _ => rfl, s.ports, s.irq, rfl⟩

theorem Aged.trans {n : Nat} {s t u : State} (h : Aged n s t) (k : Aged n t u) : Aged n s u := by
  obtain ⟨⟨a, v, hport⟩, hothers, ps, irq, hframe⟩ := h
  obtain ⟨⟨a', v', kport⟩, kothers, ps', irq', kframe⟩ := k
  exact ⟨⟨a', v', by rw [kport, hport]⟩, fun j hj => (kothers j hj).trans (hothers j hj), ps', irq', by rw [kframe, hframe]⟩

theorem aged_setPort (n : Nat) (a : Table Nat) (v : Starve) (s : State) :
    Aged n s (setPort n { port s n with ages := a, starve := v } s) :=
  ⟨⟨a, v, port_setPort_self _ _ _⟩, fun _ hk => port_setPort_ne _ _ hk, _, s.irq, rfl⟩

theorem aged_setCause (n k : Nat) (s : State) : Aged n s (setCause k s) :=
  ⟨⟨_, _, rfl⟩, fun _ _ => rfl, s.ports, _, rfl⟩

theorem aged_noteSet (n w b : Nat) (s : State) : Aged n s (noteSet w b s) :=
  ⟨⟨_, _, rfl⟩, fun _ _ => rfl, s.ports, _, rfl⟩

theorem aged_growOlder (n : Nat) (q : Request) (s : State) : Aged n s (growOlder n q s) := by
  have holder : Aged n s (setPort n (olderPort q (port s n)) s) := aged_setPort n _ _ s
  by_cases h : starves s n q
  · rw [growOlder_of_starves h]
    have hcause := holder.trans (aged_setCause n (16 + n) _)
    split
    · exact hcause
    · exact (hcause.trans (aged_setPort n _ _ _)).trans (aged_noteSet n _ _ _)
  · rw [growOlder_of_not_starves h]
    exact holder

theorem ages_growOlder (n : Nat) (q : Request) (s : State) :
    (port (growOlder n q s) n).ages = (olderPort q (port s n)).ages := by
  by_cases h : starves s n q
  · rw [growOlder_of_starves h]
    split
    · rw [port_setCause, port_setPort_self]
    · rw [port_noteSet, port_updPort_self, port_setCause, port_setPort_self]
  · rw [growOlder_of_not_starves h, port_setPort_self]

theorem aged_foldl_growOlder (n : Nat) (l : List Request) (s : State) :
    Aged n s (l.foldl (fun s q => growOlder n q s) s) := by
  induction l generalizing s with
  | nil => exact .refl n s
  | cons q r ih => exact (aged_growOlder n q s).trans (ih _)

/-! ### The row -/

/-- The decision for port `n` of the present state. -/
def decisionOf (s : State) (n : Nat) : Option Requester × Option Request :=
  decidePort s n (port s n) (visible s (port s n))

/-- The state once the port keeps its decision. -/
def decided (n : Nat) (s : State) : State :=
  setPort n (keepDecision (decisionOf s n) (s.mon.frzArb.getLsbD n) (cycleStart s (port s n)) (port s n)) s

/-- The visible requests that wait in the present port cycle. -/
def waiting (s : State) (n : Nat) : List Request :=
  (visible s (port s n)).filter (fun q => some q.who != (port s n).presents)

theorem exec_arbiterDecision_again {s : State} {n : PortNo}
    (h : (port s n.toNat).decidedAt = some (cycleStart s (port s n.toNat))) : exec (.arbiterDecision n) s = .next s := by
  have hdone : (!coreOn s || !(port s n.toNat).en || (port s n.toNat).decidedAt == some (cycleStart s (port s n.toNat))) = true := by
    rw [h, beq_self_eq_true, Bool.or_true]
  exact congrArg Host.Outcome.next (if_pos hdone)

/-- The port has still to decide in the present port cycle. -/
structure Undecided (s : State) (n : PortNo) : Prop where
  on : coreOn s = true
  en : (port s n.toNat).en = true
  fresh : (port s n.toNat).decidedAt ≠ some (cycleStart s (port s n.toNat))

section
variable {s : State} {n : PortNo} (h : Undecided s n)
include h

theorem exec_arbiterDecision : exec (.arbiterDecision n) s =
    .next ((waiting s n.toNat).foldl (fun s q => growOlder n.toNat q s) (decided n.toNat s)) := by
  have hgoes : ¬(!coreOn s || !(port s n.toNat).en || (port s n.toNat).decidedAt == some (cycleStart s (port s n.toNat))) = true := by
    simp [h.on, h.en, h.fresh]
  exact congrArg Host.Outcome.next (if_neg hgoes)

/-- What the row leaves: the port as it keeps its decision but for ages and PORT_STARVE, and all but ports and causes. -/
theorem exec_arbiterDecision_spec : ∃ t, exec (.arbiterDecision n) s = .next t ∧
    (∃ a v, port t n.toNat = { keepDecision (decisionOf s n.toNat) (s.mon.frzArb.getLsbD n.toNat) (cycleStart s (port s n.toNat))
      (port s n.toNat) with ages := a, starve := v }) ∧
    t.chans = s.chans ∧ KeepsMemory s t ∧ ∀ k, k ≠ n.toNat → port t k = port s k := by
  obtain ⟨⟨a, v, hport⟩, hothers, ps, irq, hframe⟩ := aged_foldl_growOlder n.toNat (waiting s n.toNat) (decided n.toNat s)
  refine ⟨_, exec_arbiterDecision h, ⟨a, v, ?_⟩, ?_, ?_, fun k hk => ?_⟩
  · rw [hport, decided, port_setPort_self]
  · rw [hframe]
    rfl
  · rw [hframe]
    exact ⟨fun _ => rfl, fun _ => rfl⟩
  · rw [hothers k hk, decided, port_setPort_ne _ _ hk]

/-- Where one requester alone is visible and waits, it grows older. -/
theorem exec_arbiterDecision_single {q : Request} (hvis : visible s (port s n.toNat) = [q])
    (hwaits : (port s n.toNat).presents ≠ some q.who) :
    exec (.arbiterDecision n) s = .next (growOlder n.toNat q (decided n.toNat s)) := by
  have hlist : waiting s n.toNat = [q] := by
    simp [waiting, hvis, Ne.symm hwaits]
  rw [exec_arbiterDecision h, hlist]
  rfl

end

section
variable (n : Nat) (s : State)

theorem ages_decided : (port (decided n s) n).ages = (port s n).ages := by rw [decided, port_setPort_self, ages_keepDecision]

theorem starve_decided : (port (decided n s) n).starve = (port s n).starve := by
  rw [decided, port_setPort_self, starve_keepDecision]

theorem threshold_decided : threshold (port (decided n s) n) = threshold (port s n) := by
  rw [decided, port_setPort_self, threshold_keepDecision]

end

theorem starves_decided {s : State} {n : Nat} {q : Request} : starves (decided n s) n q ↔ starves s n q := by
  rw [starves, starves, ages_decided, threshold_decided]
  rfl

theorem threshold_le (p : Port) (c : Cls) : threshold p c ≤ 65535 := by
  cases c
  · exact Nat.le_of_lt_succ p.thrBulk.isLt
  · exact Nat.le_of_lt_succ p.thrTimed.isLt
  · exact Nat.le_of_lt_succ p.thrUrgent.isLt

/-- The age that becomes the threshold is one higher than it was. -/
theorem starves_of_age {s : State} {n : Nat} {q : Request}
    (h : get 0 (port s n).ages (reqKey q.who) + 1 = threshold (port s n) (chan s q.ch).cls) : starves s n q := by
  have hle := threshold_le (port s n) (chan s q.ch).cls
  have hmin : min 65535 (get 0 (port s n).ages (reqKey q.who) + 1) = get 0 (port s n).ages (reqKey q.who) + 1 :=
    Nat.min_eq_right (h ▸ hle)
  exact ⟨by omega, hmin.trans h⟩

/-! ### Growing older beside a decision -/

section
variable {n : Nat} {q : Request} {s : State}

theorem ages_growOlder_decided (n : Nat) (q : Request) (s : State) :
    get 0 (port (growOlder n q (decided n s)) n).ages (reqKey q.who) = min 65535 (get 0 (port s n).ages (reqKey q.who) + 1) := by
  rw [ages_growOlder, olderPort, ages_decided, get_put_self]

/-- The age becomes the threshold: the cause, and the record unless one is held. -/
theorem growOlder_decided_starving (hn : n < 8) (h : starves s n q) :
    (growOlder n q (decided n s)).irq.cause.getLsbD (16 + n) = true ∧
    (port (growOlder n q (decided n s)) n).starve =
      if (port s n).starve.valid then (port s n).starve else starveRecord (chan s q.ch).cls q := by
  obtain ⟨hcause, hrecord⟩ := growOlder_starving hn (starves_decided.mpr h)
  rw [starve_decided] at hrecord
  exact ⟨hcause, hrecord⟩

/-- It does not: PORT_STARVE and the causes stay. -/
theorem growOlder_decided_not_starving (h : ¬ starves s n q) :
    (port (growOlder n q (decided n s)) n).starve = (port s n).starve ∧ (growOlder n q (decided n s)).irq = s.irq := by
  rw [growOlder_of_not_starves (mt starves_decided.mp h), port_setPort_self]
  exact ⟨starve_decided n s, rfl⟩

end

end Sys2Proof.Machine
end

section
/-! PROOFS. What a port presents when its cycle begins (02 R43, R46, R56; 06 R171 to R175): the beat that a burst owes, the granted request,
and the credits. -/

namespace Sys2Proof.Machine

open Sys2Proof.Safety

/-! ### What surrounds a beat leaves of the ports -/

/-- What a request takes from its channel (02 R37, R42). -/
def rqFields (c : Channel) : Bool × BitVec 6 × Dom × Cls := (c.priv, c.mid, c.homeDom, c.cls)

theorem rqOf_congr {c c' : Channel} (h : rqFields c' = rqFields c) (q : Request) : rqOf c' q = rqOf c q := by
  obtain ⟨hpriv, hmid, hdom, hcls⟩ : c'.priv = c.priv ∧ c'.mid = c.mid ∧ c'.homeDom = c.homeDom ∧ c'.cls = c.cls := by
    simpa [rqFields] using h
  simp only [rqOf, hpriv, hmid, hdom, hcls]

/-- A port but for registered requests, grant and read tags. -/
def outward (p : Port) : Port := { p with reqs := [], grant := none, rtags := [] }

/-- Of every port only registered requests, grant and read tags have changed; what decides on presenting stays. -/
structure Undisturbed (s t : State) : Prop where
  port : ∀ n, outward (port t n) = outward (port s n)
  frzArb : t.mon.frzArb = s.mon.frzArb
  cmd : t.cmd = s.cmd
  rqFields : ∀ ch, rqFields (chan t ch) = rqFields (chan s ch)

theorem Undisturbed.refl (s : State) : Undisturbed s s := ⟨fun _ => rfl, rfl, rfl, fun _ => rfl⟩

theorem Undisturbed.trans {s t u : State} (h : Undisturbed s t) (k : Undisturbed t u) : Undisturbed s u :=
  ⟨fun n => (k.port n).trans (h.port n), k.frzArb.trans h.frzArb, k.cmd.trans h.cmd,
    fun ch => (k.rqFields ch).trans (h.rqFields ch)⟩

theorem Undisturbed.ite {s t u : State} {c : Prop} [Decidable c] (h : Undisturbed s t) (k : Undisturbed s u) :
    Undisturbed s (if c then t else u) := by split <;> assumption

theorem undisturbed_updChan {f : Channel → Channel} (hf : ∀ c, rqFields (f c) = rqFields c) (ch : Nat) (s : State) :
    Undisturbed s (updChan ch f s) := by
  refine ⟨fun _ => rfl, rfl, rfl, fun k => ?_⟩
  rw [chan_updChan]
  split
  case isTrue hk => rw [hf, hk]
  case isFalse => rfl

theorem undisturbed_updPort {f : Port → Port} (hf : ∀ p, outward (f p) = outward p) (n : Nat)
    (s : State) : Undisturbed s (updPort n f s) := by
  refine ⟨fun k => ?_, rfl, rfl, fun _ => rfl⟩
  rw [port_updPort]
  split
  case isTrue hk => rw [hf, hk]
  case isFalse => rfl

theorem undisturbed_mapPorts {f : Port → Port} (hf : ∀ p, outward (f p) = outward p) (s : State) :
    Undisturbed s (mapPorts f s) := by
  suffices h : ∀ (l : List Nat) (s : State), Undisturbed s (l.foldl (fun s n => updPort n f s) s) from h _ _
  intro l
  induction l with
  | nil => exact .refl
  | cons n r ih => exact fun s => (undisturbed_updPort hf n s).trans (ih _)

theorem undisturbed_setCause (k : Nat) (s : State) : Undisturbed s (setCause k s) := ⟨fun _ => rfl, rfl, rfl, fun _ => rfl⟩

theorem undisturbed_logFault (e : LogEntry) (s : State) : Undisturbed s (logFault e s) := by
  unfold logFault
  dsimp only
  split <;> exact ⟨fun _ => rfl, rfl, rfl, fun _ => rfl⟩

theorem undisturbed_countCorrection (src : BitVec 3) (s : State) : Undisturbed s (countCorrection src s) := by
  unfold countCorrection growCount
  dsimp only
  split <;> exact ⟨fun _ => rfl, rfl, rfl, fun _ => rfl⟩

theorem undisturbed_foldl {β : Type} {f : State → β → State} (hf : ∀ s b, Undisturbed s (f s b)) (l : List β) (s : State) :
    Undisturbed s (l.foldl f s) := by
  induction l generalizing s with
  | nil => exact .refl s
  | cons b r ih => exact (hf s b).trans (ih _)

/-! ### The fault of a source beat (06 R179) -/

theorem undisturbed_withdraw (ch : Nat) (s : State) : Undisturbed s (withdraw ch s) := by
  unfold withdraw
  exact (undisturbed_mapPorts (by exact fun _ => rfl) s).trans (undisturbed_updChan (by exact fun _ => rfl) ch _)

theorem undisturbed_oweLog (kind : BitVec 5) (ch : Nat) (r : FaultRec) (s : State) : Undisturbed s (oweLog kind ch r s) :=
  undisturbed_updChan (by exact fun _ => rfl) ch s

theorem undisturbed_setChan {ch : Nat} {c : Channel} {s : State} (h : rqFields c = rqFields (chan s ch)) :
    Undisturbed s (setChan ch c s) := by
  refine ⟨fun _ => rfl, rfl, rfl, fun k => ?_⟩
  rw [chan_setChan]
  split
  case isTrue hk => rw [h, hk]
  case isFalse => rfl

theorem undisturbed_holdFault (ch : Nat) (r : FaultRec) (haltAt : Nat) (s : State) : Undisturbed s (holdFault ch r haltAt s) := by
  unfold holdFault
  dsimp only
  split
  case h_1 h hheld =>
    split
    · exact .ite ((undisturbed_setChan (by exact rfl)).trans (undisturbed_oweLog _ _ _ _)) (undisturbed_setChan (by exact rfl))
    · exact .ite (undisturbed_oweLog _ _ _ _) (.refl s)
  case h_2 => exact (undisturbed_setChan (by exact rfl)).trans (undisturbed_withdraw ch _)

theorem undisturbed_detect (ch : Nat) (r : FaultRec) (haltAt : Nat) (s : State) : Undisturbed s (detect ch r haltAt s) :=
  (undisturbed_holdFault ch r haltAt s).trans (undisturbed_setChan (by exact rfl))

theorem undisturbed_markRead (ch n : Nat) (st : Staged) (s : State) : Undisturbed s (markRead ch n st s) := by
  unfold markRead
  split
  · exact .ite (undisturbed_updPort (by exact fun _ => rfl) n s) (.refl s)
  · exact .refl s

theorem undisturbed_rebuildHalt (ch : Nat) (r : Run) (st : Staged) (s : State) : Undisturbed s (rebuildHalt ch r st s) := by
  unfold rebuildHalt
  exact .ite (.refl s) ((undisturbed_markRead _ _ _ s).trans (undisturbed_detect _ _ _ _))

/-! ### A beat presented (02 R43) -/

/-- The entry of a write tag after beat `k` of its burst: one beat more is sent, the burst is the same. -/
def NotesBeat (k : Nat) (f : WTag → WTag) : Prop := ∀ t, (f t).ch = t.ch ∧ (f t).len = t.len ∧ (f t).sent = k + 1

/-- A port that presents the write beat `w` of a tag, noted on the tag by `f`. -/
def sentPort (w : WdOut) (tag : Tag) (f : WTag → WTag) (p : Port) : Port :=
  { p with wdOut := some w, wdUsed := p.wdUsed + 1, wtags := modify none p.wtags tag.toNat (Option.map f) }

/-- Port `n` presents the write beat `w`, beat `k` of the burst of a tag. -/
structure BeatSent (n : Nat) (tag : Tag) (k : Nat) (w : WdOut) (s t : State) : Prop where
  port : ∃ f, NotesBeat k f ∧ outward (port t n) = sentPort w tag f (outward (port s n))
  frzArb : t.mon.frzArb = s.mon.frzArb
  cmd : t.cmd = s.cmd
  rqFields : ∀ ch, rqFields (chan t ch) = rqFields (chan s ch)

section
variable {n : Nat} {tag : Tag} {k : Nat} {w : WdOut} {s t u : State}

theorem BeatSent.after (h : BeatSent n tag k w t u) (hs : Undisturbed s t) : BeatSent n tag k w s u := by
  obtain ⟨f, hf, hsent⟩ := h.port
  exact ⟨⟨f, hf, by rw [hsent, hs.port n]⟩, h.frzArb.trans hs.frzArb, h.cmd.trans hs.cmd,
    fun ch => (h.rqFields ch).trans (hs.rqFields ch)⟩

theorem BeatSent.before (h : BeatSent n tag k w s t) (ht : Undisturbed t u) : BeatSent n tag k w s u := by
  obtain ⟨f, hf, hsent⟩ := h.port
  exact ⟨⟨f, hf, (ht.port n).trans hsent⟩, ht.frzArb.trans h.frzArb, ht.cmd.trans h.cmd,
    fun ch => (ht.rqFields ch).trans (h.rqFields ch)⟩

/-- What `noteBeat` makes of the entry of the tag. -/
def notedBeat (k now : Nat) (poison bad : Bool) (t : WTag) : WTag :=
  { t with
    sent := k + 1, lastAt := now
    poison := if poison then (match t.poison with
      | some j => some j
      | none => some k) else t.poison
    badSrc := t.badSrc || bad }

theorem beatSent_noteBeat (poison bad : Bool) (s : State) :
    BeatSent n tag k w s (noteBeat n tag k poison bad (updPort n (fun p => { p with wdOut := some w }) s)) := by
  refine ⟨⟨notedBeat k s.clk.now poison bad, fun _ => ⟨rfl, rfl, rfl⟩, ?_⟩,
    rfl, rfl, fun _ => rfl⟩
  rw [noteBeat, port_updPort_self, port_updPort_self]
  rfl

/-- A free value may be taken in between. -/
theorem beatSent_noteBeat_takeFree (poison bad : Bool) (s : State) :
    BeatSent n tag k w s (noteBeat n tag k poison bad (takeFree (updPort n (fun p => { p with wdOut := some w }) s))) :=
  have hcomm : noteBeat n tag k poison bad (takeFree (updPort n (fun p => { p with wdOut := some w }) s)) =
      takeFree (noteBeat n tag k poison bad (updPort n (fun p => { p with wdOut := some w }) s)) := rfl
  hcomm ▸ (beatSent_noteBeat poison bad s).before ⟨fun _ => rfl, rfl, rfl, fun _ => rfl⟩

end

/-- A poisoned beat is presented (06 R175). -/
theorem sendPoison_spec (n ch k : Nat) (sl : Slot) (r : Run) (bad last : Bool) (s : State) :
    ∃ w, w.last = last ∧ w.poison = true ∧ BeatSent n sl.tag k w s (sendPoison n ch k sl r bad last s) := by
  unfold sendPoison
  dsimp only
  refine ⟨_, rfl, rfl, .after (.before (beatSent_noteBeat_takeFree true bad _) (undisturbed_updChan ?_ ch _))
    (.ite (.refl s) (undisturbed_logFault _ s))⟩
  exact fun _ => rfl

theorem undisturbed_unitLeft (ch u : Nat) (r : Run) (s : State) : Undisturbed s (unitLeft ch u r s) := by
  unfold unitLeft
  exact undisturbed_updChan (by exact fun _ => rfl) ch s

theorem sendGood_spec (n ch k : Nat) (sl : Slot) (r : Run) (src : List Staged) (fwd last : Bool) (s : State) :
    ∃ w, w.last = last ∧ BeatSent n sl.tag k w s (sendGood n ch k sl r src fwd last s) := by
  unfold sendGood
  dsimp only
  split
  case h_1 st _ =>
    obtain ⟨w, hlast, -, hsent⟩ := sendPoison_spec n ch k sl r true last (rebuildHalt ch r st s)
    exact ⟨w, hlast, hsent.after (undisturbed_rebuildHalt ch r st s)⟩
  case h_2 =>
    have hcounted := undisturbed_foldl (fun s (_ : Staged) => undisturbed_countCorrection 1 s)
      (src.filter (fun st => !fwd && decodeBeat st.data st.chk != .clean)) s
    refine ⟨_, ?_, ((beatSent_noteBeat false false _).before (undisturbed_unitLeft ch _ _ _)).after hcounted⟩
    split <;> rfl

/-- The beats that a burst owes after its beat `k`. -/
def burstAfter (ch k : Nat) (sl : Slot) : Option Burst :=
  if k + 1 == sl.len then none else some { ch := ch, tag := sl.tag, len := sl.len, next := k + 1 }

/-- A beat of a burst is presented, poisoned where a beat that it needs is missing or bad (06 R175). -/
theorem sendBeat_spec {ch k : Nat} {sl : Slot} {r : Run} {s : State} (n : Nat) (hrun : (chan s ch).run = some r) :
    ∃ w, w.last = (k + 1 == sl.len) ∧
      (sl.badSrc = true ∨ beatState r (sl.unit + k) = .missing ∨ beatState r (sl.unit + k) = .bad → w.poison = true) ∧
      BeatSent n sl.tag k w (updPort n (fun p => { p with burst := burstAfter ch k sl }) s) (sendBeat n ch k sl s) := by
  generalize hu : updPort n (fun p => { p with burst := burstAfter ch k sl }) s = u
  have poisoned (bad : Bool) : ∃ w, w.last = (k + 1 == sl.len) ∧
      (sl.badSrc = true ∨ beatState r (sl.unit + k) = .missing ∨ beatState r (sl.unit + k) = .bad → w.poison = true) ∧
      BeatSent n sl.tag k w u (sendPoison n ch k sl r bad (k + 1 == sl.len) u) := by
    obtain ⟨w, hlast, hpoison, hsent⟩ := sendPoison_spec n ch k sl r bad (k + 1 == sl.len) u
    exact ⟨w, hlast, fun _ => hpoison, hsent⟩
  unfold burstAfter at hu
  unfold sendBeat
  simp only [hrun, hu]
  split
  case isTrue => exact poisoned true
  case isFalse hsrc =>
    split
    case h_1 => exact poisoned true
    case h_2 => exact poisoned false
    case h_3 src time fwd hwhole =>
      split
      case isTrue =>
        obtain ⟨w, hlast, hsent⟩ := sendGood_spec n ch k sl r src fwd (k + 1 == sl.len) u
        exact ⟨w, hlast, fun hbad => by simp [hsrc, hwhole] at hbad, hsent⟩
      case isFalse => exact poisoned false

/-! ### A granted request presented (02 R38, R43, R46) -/

/-- The read tag of a request as it is presented. -/
def ReadTagOf (q : Request) (t : RTag) : Prop := t.ch = q.ch ∧ t.addr = q.addr ∧ t.len = q.len ∧ t.got = 0

theorem port_presentRead (n : Nat) (q : Request) (s : State) : ∃ t, ReadTagOf q t ∧ port (presentRead n q s) n = { port s n with
    rqUsed := (port s n).rqUsed + 1, rqOut := some (rqOf (chan s q.ch) q), presents := some q.who
    rtags := put none (port s n).rtags q.tag.toNat (some t) } := by
  unfold presentRead
  dsimp only
  split
  · rw [if_pos rfl]
    exact ⟨_, ⟨rfl, rfl, rfl, rfl⟩, port_updPort_self _ _ _⟩
  · rw [if_neg Bool.false_ne_true, port_updChan]
    exact ⟨_, ⟨rfl, rfl, rfl, rfl⟩, port_updPort_self _ _ _⟩

/-- The port of a write that is presented, before its beat. -/
def presentingWrite (c : Channel) (q : Request) (t : WTag) (p : Port) : Port :=
  { p with rqUsed := p.rqUsed + 1, rqOut := some (rqOf c q), presents := some q.who, wtags := put none p.wtags q.tag.toNat (some t) }

/-- The write tag of a request of the run `r` as it is presented. -/
def writeTagOf (r : Run) (q : Request) : WTag :=
  { ch := q.ch, addr := q.addr, size := q.size, len := q.len, unit := q.lo, geo := r.geo, e0 := r.e0, puti := r.geo.imm.isSome }

theorem presentWrite_of_slot {n : Nat} {q : Request} {sl : Slot} {r : Run} {s : State} (hrun : (chan s q.ch).run = some r)
    (hsl : slotOf s q.ch q.tag = some sl) :
    presentWrite n q s = sendBeat n q.ch 0 sl (updPort n (presentingWrite (chan s q.ch) q (writeTagOf r q)) s) := by
  have hslot : ∀ f, slotOf (updPort n f s) q.ch q.tag = some sl := fun _ => hsl
  unfold presentWrite
  simp only [hrun, hslot]
  rfl

/-! ### The cycle begins -/

/-- A port as its cycle begins: nothing is presented yet, withdrawn requests are gone. -/
def clearedPort (p : Port) : Port :=
  let live := p.reqs.filter (fun q => !q.gone)
  let gone := p.reqs.filter (·.gone)
  { p with
    reqs := live, rqOut := none, wdOut := none, presents := none, freedR := 0, freedW := 0
    holder := match p.holder with
      | some h => if gone.any (fun q => q.who == h) then none else some h
      | none => none
    ages := p.ages.filter (fun e => (live ++ p.grant.toList).any (fun q => reqKey q.who == e.1) && !gone.any (fun q => reqKey q.who == e.1)) }

/-- The beat that a burst owes is presented. -/
def owedBeat (n : Nat) (b : Option Burst) (s : State) : State :=
  match b with
  | some b => match slotOf s b.ch b.tag with
    | some sl => sendBeat n b.ch b.next sl s
    | none => s
  | none => s

/-- The state once the owed beat is presented, before the granted request. -/
def owedPresented (n : Nat) (s : State) : State := owedBeat n (port s n).burst (setPort n (clearedPort (port s n)) s)

/-- A port whose granted request is presented. -/
def ungrantedPort (q : Request) (p : Port) : Port := { p with grant := none, ages := put 0 p.ages (reqKey q.who) 0 }

/-- The granted request is presented, unless the arbiter is frozen or the ports are silent. -/
def presentGrant (n : Nat) (g : Option Request) (s : State) : State :=
  match g with
  | none => s
  | some q =>
    if s.mon.frzArb.getLsbD n || portsSilent s then updPort n (fun p => { p with grant := none, reqs := q :: p.reqs }) s
    else if q.write then presentWrite n q (updPort n (ungrantedPort q) s) else presentRead n q (updPort n (ungrantedPort q) s)

theorem beginCycle_eq (n : Nat) (s : State) : beginCycle n s = presentGrant n (port s n).grant (owedPresented n s) := rfl

theorem portsSilent_congr {s t : State} (h : t.cmd = s.cmd) : portsSilent t = portsSilent s := by
  simp only [portsSilent, selfTesting, h]

section
variable {n : Nat} {s : State}

theorem beginCycle_of_no_grant (h : (port s n).grant = none) : beginCycle n s = owedPresented n s := by
  rw [beginCycle_eq, h]
  rfl

theorem owedPresented_of_no_burst (h : (port s n).burst = none) : owedPresented n s = setPort n (clearedPort (port s n)) s := by
  rw [owedPresented, h]
  rfl

/-- The port's arbiter is not frozen, and no self-test silences the ports. -/
structure MayPresent (s : State) (n : Nat) : Prop where
  unfrozen : s.mon.frzArb.getLsbD n = false
  unsilenced : portsSilent s = false

theorem MayPresent.congr {t : State} (h : MayPresent s n) (hfrz : t.mon.frzArb = s.mon.frzArb) (hcmd : t.cmd = s.cmd) :
    MayPresent t n := ⟨hfrz ▸ h.unfrozen, (portsSilent_congr hcmd).trans h.unsilenced⟩

theorem presentGrant_of_mayPresent {q : Request} (h : MayPresent s n) : presentGrant n (some q) s =
    if q.write then presentWrite n q (updPort n (ungrantedPort q) s) else presentRead n q (updPort n (ungrantedPort q) s) := by
  have hgoes : ¬(s.mon.frzArb.getLsbD n || portsSilent s) = true := by simp [h.unfrozen, h.unsilenced]
  exact if_neg hgoes

/-- What an owed beat leaves: the beat at its port, and what decides on the granted request as it was. -/
theorem owedPresented_spec {b : Burst} {sl : Slot} {r : Run} (hb : (port s n).burst = some b)
    (hsl : slotOf s b.ch b.tag = some sl) (hrun : (chan s b.ch).run = some r) :
    ∃ w, w.last = (b.next + 1 == sl.len) ∧
      (sl.badSrc = true ∨ beatState r (sl.unit + b.next) = .missing ∨ beatState r (sl.unit + b.next) = .bad → w.poison = true) ∧
      (∃ f, outward (port (owedPresented n s) n) =
        sentPort w sl.tag f (outward { clearedPort (port s n) with burst := burstAfter b.ch b.next sl })) ∧
      (owedPresented n s).mon.frzArb = s.mon.frzArb ∧ (owedPresented n s).cmd = s.cmd ∧
      ∀ ch, rqFields (chan (owedPresented n s) ch) = rqFields (chan s ch) := by
  have howed : owedPresented n s = sendBeat n b.ch b.next sl (setPort n (clearedPort (port s n)) s) := by
    rw [owedPresented, hb, owedBeat, show slotOf (setPort n (clearedPort (port s n)) s) b.ch b.tag = some sl from hsl]
  obtain ⟨w, hlast, hpoison, ⟨f, -, hport⟩, hfrz, hcmd, hattr⟩ :=
    sendBeat_spec (k := b.next) (sl := sl) (s := setPort n (clearedPort (port s n)) s) n hrun
  rw [port_updPort_self, port_setPort_self] at hport
  rw [howed]
  exact ⟨w, hlast, hpoison, ⟨f, hport⟩, hfrz, hcmd, hattr⟩

section
variable {q : Request} (hg : (port s n).grant = some q)
include hg

/-- A granted read is presented, whatever the port owes beside it. -/
theorem beginCycle_of_read (h : MayPresent (owedPresented n s) n) (hread : q.write = false) :
    ∃ t, ReadTagOf q t ∧ port (beginCycle n s) n = { ungrantedPort q (port (owedPresented n s) n) with
      rqUsed := (port (owedPresented n s) n).rqUsed + 1, rqOut := some (rqOf (chan (owedPresented n s) q.ch) q)
      presents := some q.who, rtags := put none (port (owedPresented n s) n).rtags q.tag.toNat (some t) } := by
  rw [beginCycle_eq, hg, presentGrant_of_mayPresent h, hread, if_neg Bool.false_ne_true]
  obtain ⟨t, htag, hport⟩ := port_presentRead n q (updPort n (ungrantedPort q) (owedPresented n s))
  rw [port_updPort_self] at hport
  exact ⟨t, htag, hport⟩

/-- A granted write is presented with its beat 0. -/
theorem beginCycle_of_write {sl : Slot} (h : MayPresent s n) (hb : (port s n).burst = none) (hwrite : q.write = true)
    (hsl : slotOf s q.ch q.tag = some sl) : ∃ (r : Run) (w : WdOut) (f : WTag → WTag),
      w.last = (0 + 1 == sl.len) ∧ NotesBeat 0 f ∧ outward (port (beginCycle n s) n) = sentPort w sl.tag f
        (outward { presentingWrite (chan s q.ch) q (writeTagOf r q) (ungrantedPort q (clearedPort (port s n))) with
          burst := burstAfter q.ch 0 sl }) := by
  obtain ⟨r, hrun⟩ : ∃ r, (chan s q.ch).run = some r := by
    cases hr : (chan s q.ch).run with
    | some r => exact ⟨r, rfl⟩
    | none => simp [slotOf, hr] at hsl
  rw [beginCycle_eq, hg, owedPresented_of_no_burst hb,
    presentGrant_of_mayPresent (h.congr (t := setPort n (clearedPort (port s n)) s) rfl rfl), if_pos hwrite]
  rw [presentWrite_of_slot (s := updPort n (ungrantedPort q) (setPort n (clearedPort (port s n)) s)) hrun hsl]
  obtain ⟨w, hlast, -, ⟨f, hf, hport⟩, -⟩ := sendBeat_spec (k := 0) (sl := sl) (r := r) n
    (s := updPort n (presentingWrite (chan s q.ch) q (writeTagOf r q)) (updPort n (ungrantedPort q) (setPort n (clearedPort (port s n)) s))) hrun
  simp only [port_updPort_self, port_setPort_self] at hport
  exact ⟨r, w, f, hlast, hf, hport⟩

end

end

/-! ### Credits (02 R56) -/

/-- The step of `beginCredits` for one port. -/
def beginCredit (s : State) (n : Nat) : State := if cycleBegins s n then updPort n newCredits s else s

theorem beginCredit_frame (s : State) (n : Nat) : ∃ ps, beginCredit s n = { s with ports := ps } := by
  unfold beginCredit
  split
  · exact ⟨_, rfl⟩
  · exact ⟨s.ports, rfl⟩

theorem port_beginCredit (s : State) (n k : Nat) : port (beginCredit s n) k =
    if k = n ∧ cycleBegins s n = true then newCredits (port s k) else port s k := by
  unfold beginCredit
  split
  case isTrue h =>
    rw [port_updPort]
    by_cases hk : k = n <;> simp [hk, h]
  case isFalse h => simp [h]

/-- Beginning a cycle of one port begins none of another. -/
theorem cycleBegins_beginCredit {s : State} {n k : Nat} (hk : k ≠ n) : cycleBegins (beginCredit s n) k = cycleBegins s k := by
  have hport : port (beginCredit s n) k = port s k := by simp [port_beginCredit, hk]
  have hclk : (beginCredit s n).clk = s.clk := by
    obtain ⟨ps, hframe⟩ := beginCredit_frame s n
    rw [hframe]
  simp only [cycleBegins, hport, coreCycle, hclk]

theorem foldl_beginCredit {l : List Nat} (hl : l.Nodup) (s : State) :
    (∃ ps, l.foldl beginCredit s = { s with ports := ps }) ∧
    ∀ k, port (l.foldl beginCredit s) k = if k ∈ l ∧ cycleBegins s k = true then newCredits (port s k) else port s k := by
  induction l generalizing s with
  | nil => exact ⟨⟨s.ports, rfl⟩, fun _ => by simp⟩
  | cons n r ih =>
    obtain ⟨hn, hr⟩ := List.nodup_cons.mp hl
    obtain ⟨⟨ps, hframe⟩, hports⟩ := ih hr (beginCredit s n)
    obtain ⟨ps', hhead⟩ := beginCredit_frame s n
    refine ⟨⟨ps, by rw [List.foldl_cons, hframe, hhead]⟩, fun k => ?_⟩
    rw [List.foldl_cons, hports k, port_beginCredit]
    by_cases hk : k = n
    · simp [hk, hn]
    · simp [hk, cycleBegins_beginCredit hk]

theorem beginCredits_spec (s : State) : { beginCredits s with ports := s.ports } = s ∧ ∀ n, n < 8 →
    port (beginCredits s) n = if cycleBegins s n then newCredits (port s n) else port s n := by
  obtain ⟨⟨ps, hframe⟩, hports⟩ := foldl_beginCredit (List.nodup_range (n := 8)) s
  have hfold : beginCredits s = (List.range 8).foldl beginCredit s := rfl
  refine ⟨by rw [hfold, hframe], fun n hn => ?_⟩
  rw [hfold, hports n]
  simp [hn]

/-! ### What the cases of a beginning cycle show -/

section
variable {n : Nat} {s : State}

/-- With nothing owed and nothing granted nothing is presented, and no credit is used. -/
theorem beginCycle_idle (hg : (port s n).grant = none) (hb : (port s n).burst = none) :
    port (beginCycle n s) n = clearedPort (port s n) := by
  rw [beginCycle_of_no_grant hg, owedPresented_of_no_burst hb, port_setPort_self]

/-- What a granted read shows, and its tag. -/
theorem beginCycle_read_spec {q : Request} (hg : (port s n).grant = some q) (h : MayPresent (owedPresented n s) n)
    (hattr : ∀ ch, rqFields (chan (owedPresented n s) ch) = rqFields (chan s ch)) (hread : q.write = false) :
    (port (beginCycle n s) n).rqOut = some (rqOf (chan s q.ch) q) ∧
    (port (beginCycle n s) n).wdOut = (port (owedPresented n s) n).wdOut ∧
    (port (beginCycle n s) n).presents = some q.who ∧
    (port (beginCycle n s) n).rqUsed = (port (owedPresented n s) n).rqUsed + 1 ∧
    (port (beginCycle n s) n).wdUsed = (port (owedPresented n s) n).wdUsed ∧
    (port (beginCycle n s) n).grant = none ∧
    ∃ k, get none (port (beginCycle n s) n).rtags q.tag.toNat = some k ∧ k.ch = q.ch ∧ k.addr = q.addr ∧ k.len = q.len ∧
      k.got = 0 := by
  obtain ⟨t, htag, hport⟩ := beginCycle_of_read hg h hread
  rw [hport, rqOf_congr (hattr q.ch)]
  exact ⟨rfl, rfl, rfl, rfl, rfl, rfl, t, get_put_self _ _ _, htag⟩

/-- What an owed beat shows at its port. -/
theorem owedPresented_shows {b : Burst} {sl : Slot} {r : Run} (hb : (port s n).burst = some b)
    (hsl : slotOf s b.ch b.tag = some sl) (hrun : (chan s b.ch).run = some r) :
    (∃ w, (port (owedPresented n s) n).wdOut = some w ∧ w.last = (b.next + 1 == sl.len) ∧
      (sl.badSrc = true ∨ beatState r (sl.unit + b.next) = .missing ∨ beatState r (sl.unit + b.next) = .bad → w.poison = true)) ∧
    (port (owedPresented n s) n).rqOut = none ∧ (port (owedPresented n s) n).rqUsed = (port s n).rqUsed ∧
    (port (owedPresented n s) n).wdUsed = (port s n).wdUsed + 1 ∧
    (port (owedPresented n s) n).burst = burstAfter b.ch b.next sl := by
  obtain ⟨w, hlast, hpoison, ⟨f, hport⟩, -⟩ := owedPresented_spec hb hsl hrun
  have shows {γ : Type} (g : Port → γ) := congrArg g hport
  exact ⟨⟨w, shows Port.wdOut, hlast, hpoison⟩, shows Port.rqOut, shows Port.rqUsed, shows Port.wdUsed, shows Port.burst⟩

/-- What a granted write shows with its beat 0, and its tag. -/
theorem beginCycle_write_spec {q : Request} {sl : Slot} (hg : (port s n).grant = some q) (hb : (port s n).burst = none)
    (h : MayPresent s n) (hwrite : q.write = true) (hsl : slotOf s q.ch q.tag = some sl) (htag : sl.tag = q.tag) :
    (port (beginCycle n s) n).rqOut = some (rqOf (chan s q.ch) q) ∧ (port (beginCycle n s) n).rqUsed = (port s n).rqUsed + 1 ∧
    (port (beginCycle n s) n).wdUsed = (port s n).wdUsed + 1 ∧
    (∃ w, (port (beginCycle n s) n).wdOut = some w ∧ w.last = (sl.len == 1)) ∧
    (port (beginCycle n s) n).burst = burstAfter q.ch 0 sl ∧
    ∃ k, get none (port (beginCycle n s) n).wtags q.tag.toNat = some k ∧ k.ch = q.ch ∧ k.len = q.len ∧ k.sent = 1 := by
  obtain ⟨r, w, f, hlast, hf, hport⟩ := beginCycle_of_write hg h hb hwrite hsl
  have shows {γ : Type} (g : Port → γ) := congrArg g hport
  have hnoted : get none (port (beginCycle n s) n).wtags q.tag.toNat = some (f (writeTagOf r q)) := by
    refine (congrArg (get none · q.tag.toNat) (shows Port.wtags)).trans ?_
    simp only [sentPort, outward, presentingWrite, modify, htag, get_put_self, Option.map_some]
  refine ⟨shows Port.rqOut, shows Port.rqUsed, shows Port.wdUsed, ⟨w, shows Port.wdOut, ?_⟩, shows Port.burst, _, hnoted,
    hf (writeTagOf r q)⟩
  rw [hlast, Nat.zero_add, Bool.beq_comm]

theorem burstAfter_eq (ch k : Nat) (sl : Slot) : burstAfter ch k sl =
    if k + 1 = sl.len then none else some { ch := ch, tag := sl.tag, len := sl.len, next := k + 1 } := by
  simp [burstAfter]

end

end Sys2Proof.Machine
end

section
/-! PROOFS. ARBITER_DECISION settled (O26): the choice, the row, and what a port presents in its cycle. -/

namespace Sys2Proof.Machine

open Sys2Proof.Safety

/-! ### The obligation -/

/-- Settles O26: the choice by the cases of `decidePort`, the row by what the port keeps of the decision and by what growing older does, the
port cycle by the owed beat and the granted request. -/
theorem theArbiterDecides : Obligations.TheArbiterDecides := by
  refine ⟨?choice, ?decided, ?row, ?cycle⟩
  case choice =>
    intro s n p v
    refine ⟨decidePort_nil, decidePort_nil_of_chain, fun q => mem_of_decidePort, fun h q hh hq => ?holder, fun habsent => ?absent⟩
    case holder =>
      have hheld := visibleHolder_of_find hh hq
      have hwho : q.who = h := beq_iff_eq.mp (List.find?_some (p := fun x : Request => x.who == h) hq)
      refine ⟨fun hkeep => ?_, fun hcls ⟨x, hx, hu⟩ => ?_⟩
      · rw [decidePort_of_holder hheld hkeep]
        refine ⟨congrArg some hwho, fun hel => if_pos hel, fun hel => ?_⟩
        have hlent : presented s n p v q = (nextOrder s n p v).find? (eligible p) := if_neg (Bool.eq_false_iff.mp hel)
        dsimp only
        rw [hlent]
        exact find?_nextOrder
      · obtain ⟨u, hmem, hbest, hcls'⟩ := bestUrgent_eq_some (p := p) hx hu
        exact ⟨u, hmem, hcls', by rw [decidePort_of_overtaken hheld hcls hbest]⟩
    case absent =>
      refine ⟨fun hchain hkeep => ?_, fun hloses ⟨x, hx, hu⟩ => decidePort_of_urgent habsent hloses hx hu,
        fun hchain => ⟨fun o howner hfirst => ?_, decidePort_of_background habsent hchain⟩⟩
      · rw [decidePort_of_chain habsent hchain hkeep]
        exact ⟨rfl, find?_nextOrder⟩
      · have hhead : (nextOrder s n p v).head? = some o := by
          rw [nextOrder, show nextOwner s n p v = some o from howner]
          exact head?_choiceOrder_of_owner (mem_of_pegOwner howner) hfirst
        rw [decidePort_of_head habsent hchain hhead]
  case decided =>
    intro s n _ _ hdone
    exact exec_arbiterDecision_again hdone
  case row =>
    intro s n hon hen hfresh
    have h : Undecided s n := ⟨hon, hen, hfresh⟩
    refine ⟨fun hfrz => ?_, fun hfrz => ?_, fun q hvis hwaits => ?_⟩
    · obtain ⟨t, hexec, ⟨a, v, hport⟩, hrest⟩ := exec_arbiterDecision_spec h
      rw [hfrz, keepDecision_eq] at hport
      refine ⟨t, hexec, ?_⟩
      rw [hport]
      exact ⟨rfl, rfl, rfl, rfl, rfl, rfl, hrest⟩
    · obtain ⟨t, hexec, ⟨a, v, hport⟩, hrest⟩ := exec_arbiterDecision_spec h
      rw [hfrz, keepDecision_frozen] at hport
      refine ⟨t, hexec, ?_⟩
      rw [hport]
      exact ⟨rfl, rfl, rfl, rfl, hrest⟩
    · refine ⟨_, exec_arbiterDecision_single h hvis hwaits, ages_growOlder_decided n.toNat q s, fun hage => ?_, fun hage => ?_⟩
      · obtain ⟨hcause, hrecord⟩ := growOlder_decided_starving n.isLt (starves_of_age hage)
        refine ⟨hcause, fun hvalid => hrecord.trans (if_pos hvalid), fun hvalid => ?_⟩
        rw [hrecord, if_neg (Bool.eq_false_iff.mp hvalid)]
        refine ⟨rfl, rfl, rfl, fun m hm => ?_, fun c hc => ?_⟩
        · simp [starveRecord, hm]
        · simp [starveRecord, hc]
      · exact growOlder_decided_not_starving fun hs => hage hs.2
  case cycle =>
    intro s n
    refine ⟨fun hg hb => ?idle, fun q hg hb hfrz hsilent => ⟨fun hread => ?read, fun sl hwrite hsl htag => ?write⟩, ?credits,
      fun b sl r q hb hsl hrun hg hread hfrz hsilent => ?both, fun b sl r hb hg hsl hrun => ?owed⟩
    case idle =>
      rw [beginCycle_idle hg hb]
      exact ⟨rfl, rfl, rfl, rfl, rfl⟩
    case read =>
      have howed := owedPresented_of_no_burst hb
      have hmay : MayPresent (owedPresented n s) n := by
        rw [howed]
        exact ⟨hfrz, hsilent⟩
      obtain ⟨hrq, hwd, hpresents, hused, -, hgrant, htag⟩ := beginCycle_read_spec hg hmay (by rw [howed]; exact fun _ => rfl) hread
      rw [howed, port_setPort_self] at hwd hused
      exact ⟨hrq, hwd, hpresents, hused, hgrant, htag⟩
    case write =>
      obtain ⟨hrq, hused, hwused, hout, hburst, hnoted⟩ := beginCycle_write_spec hg hb ⟨hfrz, hsilent⟩ hwrite hsl htag
      refine ⟨hrq, hused, hwused, hout, hburst.trans ((burstAfter_eq q.ch 0 sl).trans ?_), hnoted⟩
      simp only [Nat.zero_add, eq_comm, htag]
    case credits =>
      rintro p rfl hn
      obtain ⟨hframe, hports⟩ := beginCredits_spec s
      exact ⟨hports n hn, hframe⟩
    case both =>
      obtain ⟨-, -, -, -, hfrz', hcmd, hattr⟩ := owedPresented_spec hb hsl hrun
      have hmay : MayPresent (owedPresented n s) n := MayPresent.congr ⟨hfrz, hsilent⟩ hfrz' hcmd
      obtain ⟨⟨w, hout, hlast, -⟩, -, hrqUsed, hwdUsed, -⟩ := owedPresented_shows hb hsl hrun
      obtain ⟨hrq, hwd, hpresents, hused, hwused, -, htag⟩ := beginCycle_read_spec hg hmay hattr hread
      exact ⟨hrq, hpresents, ⟨w, hwd.trans hout, hlast⟩, hused.trans (congrArg (· + 1) hrqUsed), hwused.trans hwdUsed, htag⟩
    case owed =>
      obtain ⟨⟨w, hout, hlast, hpoison⟩, hrq, -, hused, hburst⟩ := owedPresented_shows hb hsl hrun
      rw [beginCycle_of_no_grant hg]
      exact ⟨⟨w, hout, hlast, hpoison⟩, hrq, hused, hburst.trans (burstAfter_eq _ _ _)⟩

end Sys2Proof.Machine
end

section
/-! PROOFS. The passing of time refuted (O6). A RESTRUCTURE that has waited for the SHA-256 unit loads its copy at the next edge of CFG_CLK,
which is a TICK edge too (13 R346; log entry 46). The CASCADE of the copy then ends a slew under way (11 R280): its remainder is 0, where
the statement has it stay, as no correction was made. -/

namespace Sys2Proof.Machine

/-! ### The counterexample -/

/-- The block one ccyc before that edge, with 5 ticks of a slew to go. -/
def restructureInSlew : State := { restructureHeldBack with clk := { now := 3, slewRem := 5 } }

/-- The slew has ended with the load (11 R280). -/
theorem slewRem_tick_restructureInSlew : (tick restructureInSlew).clk.slewRem = 0 := by decide +kernel

/-! ### The obligation -/

/-- Refutes O6: the clause on the remainder of a slew, at a state in which no access is offered, no SYNC step and no SET_TIME is due, and a
RESTRUCTURE waits for nothing but the next edge of CFG_CLK. -/
theorem not_timePassesByTicks : ¬ Obligations.TimePassesByTicks := by
  intro htime
  obtain ⟨-, -, htick, -⟩ := htime restructureInSlew (by decide) rfl
  have hnone : ∀ d v, restructureInSlew.clk.setTime = some (d, v) → restructureInSlew.clk.now + 1 < d := fun _ _ h => nomatch h
  obtain ⟨hslew, -⟩ := htick rfl hnone
  obtain ⟨-, hrem, -⟩ := hslew rfl
  rw [slewRem_tick_restructureInSlew] at hrem
  exact absurd hrem (by decide)

end Sys2Proof.Machine
end

section
/-! PROOFS. The guyline cascade refuted (O59). In the clause on a frame that waits for the TICK edge, that edge may be an edge of CFG_CLK at
which a waiting RESTRUCTURE loads its copy (13 R346; log entry 46). Where the CASCADE of the copy does not use the port, the port has no
link from then on and drives 0 (12 Table 12.7; 11 R283), where the statement has the SOF of the frame on TXD. -/

namespace Sys2Proof.Machine

/-! ### The counterexample -/

/-- The block one ccyc before that edge, with an ECHO_RSP that waits for it on the downstream port. -/
def restructureBeforeFrame : State :=
  { restructureHeldBack with
    gl := { dnUsed := true, dnLink := { own := [{ type := 3, bc := false, src := 0, dst := 0, payload := 0 }], start := true } } }

/-- The copy does not use the port, whose TXD is 0. -/
theorem txd_tick_restructureBeforeFrame : (linkOf (tick restructureBeforeFrame) true).txd = 0 := by decide +kernel

/-! ### The obligation -/

/-- Refutes O59: the clause of FRAME_SEND on the TICK edge at which a free port starts a frame, at a state in which no access is offered and
a RESTRUCTURE waits for nothing but the next edge of CFG_CLK. -/
theorem not_theGuylineCascade : ¬ Obligations.TheGuylineCascade := by
  rintro ⟨-, -, hframes, -⟩
  obtain ⟨-, -, -, -, -, hwaiting⟩ := hframes restructureBeforeFrame rfl
  obtain ⟨-, hstarts⟩ := hwaiting true rfl rfl
  obtain ⟨-, hsof, -⟩ := hstarts rfl rfl rfl (List.cons_ne_nil _ _) (by decide)
  rw [txd_tick_restructureBeforeFrame] at hsof
  exact absurd hsof (by decide)

end Sys2Proof.Machine
end

section
/-! PROOFS. The registers right after reset (O2): the state of reset holds every field at its reset value, so that each read comes down to
the field that its register shows. -/

namespace Sys2Proof.Machine

/-- A table without entries reads its default at every key: the channels and ports of reset are none but such. -/
theorem chan_reset (ch : Nat) : chan State.reset ch = {} := get_nil ch

theorem port_reset (n : Nat) : port State.reset n = {} := get_nil n

/-- Settles O2: the clock and the power state are fields of the state, and the registers are read from it. -/
theorem resetValuesOfTheRegisters : Obligations.ResetValuesOfTheRegisters := by
  refine ⟨rfl, rfl, rfl, ?causeLo, ?causeHi, ?maskLo, ?maskHi, ?eccCnt, ?eccThr, ?flog, ?pwrCtl, ?pwrStat, ?cmdStat, chan_reset,
    port_reset⟩
  all_goals decide

end Sys2Proof.Machine
end

section
/-! PROOFS. COMMIT_APPLY settled (O50): the peg commit that an armed commit forms two ticks before T, and its other effects at T (11 R303,
R304, Table 11.6), where nothing was changed since the arming (R305). -/

namespace Sys2Proof.Machine

open Sys2Proof.Safety

/-! ### Fields that did not change since the arming (11 R305) -/

theorem mixWord_self {n : Nat} (ms : List (BitVec n)) (k : Nat) (x : BitVec n) : mixWord ms k x x = x := if_pos rfl

theorem mixTable_self {n : Nat} (ms : List (BitVec n)) (k : Nat) (x : Table (BitVec n)) : mixTable ms k x x = x := if_pos rfl

theorem armedSel_of_unchanged {s : State} (h : s.com.selL = s.com.sel) : armedSel s = s.com.sel := by
  rw [armedSel, h, mixWord_self]

theorem armedGates_of_unchanged {s : State} (h : s.com.gatesL = s.com.gates) : armedGates s = s.com.gates := by
  rw [armedGates, h, mixWord_self]

theorem armedRoutes_of_unchanged {s : State} (h : s.com.snapR = oldShadow s) : armedRoutes s = oldShadow s := by
  simp only [armedRoutes, h, mixTable_self]

/-! ### The peg commit of an armed commit (11 Table 11.6) -/

/-- A write for an armed commit: the commit of its wrap covers what the write names, as selected by the arming. -/
theorem pegCommitWrite_armed {ports : BitVec 8} {prio : Bool} (h : ports ≠ 0 ∨ prio = true) (s : State) :
    ∃ c ∈ (pegCommitWrite ports prio true s).pegCommits, c.wrap = commitWrap s ∧
      (prio = true → c.prio = true ∧ c.armedPrio = true) ∧
      ∀ n, ports.getLsbD n = true → c.ports.getLsbD n = true ∧ c.armed.getLsbD n = true := by
  have hnamed : ¬(ports = 0 ∧ prio = false) := by
    rintro ⟨hports, hprio⟩
    exact h.elim (· hports) (Bool.eq_false_iff.mp hprio)
  simp only [pegCommitWrite, if_neg hnamed, if_true, Bool.true_and]
  split
  case isTrue hany =>
    obtain ⟨c, hc, hwrap⟩ := List.any_eq_true.mp hany
    have hwrap : c.wrap = commitWrap s := beq_iff_eq.mp hwrap
    refine ⟨_, List.mem_map.mpr ⟨c, hc, if_pos hwrap⟩, hwrap, ?_, fun n hn => ?_⟩
    · rintro rfl
      exact ⟨Bool.or_true _, Bool.or_true _⟩
    · simp only [BitVec.getLsbD_or, hn, Bool.or_true, and_self]
  case isFalse =>
    exact ⟨_, List.mem_append_right _ (List.mem_singleton_self _), rfl, fun hp => ⟨hp, hp⟩, fun _ hn => ⟨hn, hn⟩⟩

theorem pegCommitWrite_frame (ports : BitVec 8) (prio armed : Bool) (s : State) :
    ∃ cs, pegCommitWrite ports prio armed s = { s with pegCommits := cs } := by
  by_cases h : ports = 0 ∧ prio = false
  · obtain ⟨rfl, rfl⟩ := h
    exact ⟨s.pegCommits, pegCommitWrite_of_nothing armed s⟩
  · have hnamed : ports ≠ 0 ∨ prio = true := by
      by_cases hports : ports = 0
      · exact .inr (Bool.not_eq_false _ ▸ fun hprio => h ⟨hports, hprio⟩)
      · exact .inl hports
    obtain ⟨cs, hwrite, -⟩ := pegCommitWrite_of_named hnamed armed s
    exact ⟨cs, hwrite⟩

/-- Two ticks before T: the peg commit is formed, and the commit goes on to wait for its wrap. -/
theorem armedPegs_frame (s : State) : ∃ cs w n, armedPegs s =
    { s with pegCommits := cs, com := { s.com with pegs := true, wrap := w }, free := n } := by
  obtain ⟨cs, hwrite⟩ := pegCommitWrite_frame (fld (armedSel s) 0 8) (bit (armedSel s) 8) true s
  simp only [armedPegs, hwrite, takeMany]
  exact ⟨_, _, _, rfl⟩

/-! ### Routes brought into force (15 R384) -/

theorem countEdge_frame (n : Nat) (s : State) : ∃ ls, countEdge n s = { s with lines := ls } := by
  unfold countEdge
  dsimp only
  split <;> exact ⟨_, rfl⟩

theorem handleEdge_frame (s : State) (n : Nat) : ∃ ls, handleEdge s n = { s with lines := ls } := by
  unfold handleEdge
  split
  · exact ⟨s.lines, rfl⟩
  · dsimp only
    split
    · exact ⟨_, rfl⟩
    · exact countEdge_frame n s

theorem commitLine_frame (n : Nat) (old new : Word) (s : State) : ∃ ls, commitLine n old new s = { s with lines := ls } := by
  unfold commitLine
  split
  · exact ⟨s.lines, rfl⟩
  · dsimp only
    split
    · exact ⟨_, rfl⟩
    · exact handleEdge_frame _ n

theorem foldl_lines_frame {β : Type} {f : State → β → State} (hf : ∀ s b, ∃ ls, f s b = { s with lines := ls }) (l : List β) (s : State) :
    ∃ ls, l.foldl f s = { s with lines := ls } := by
  induction l generalizing s with
  | nil => exact ⟨s.lines, rfl⟩
  | cons b r ih =>
    obtain ⟨ls, h⟩ := hf s b
    obtain ⟨ls', h'⟩ := ih (f s b)
    exact ⟨ls', by rw [List.foldl_cons, h', h]⟩

/-- A commit of routes changes the routes in force and the counters of their lines. -/
theorem applyRoutes_frame (r : Routes) (s : State) : ∃ ls, applyRoutes r s = { s with routes := r, lines := ls } := by
  unfold applyRoutes
  dsimp only
  exact foldl_lines_frame (f := fun t n => commitLine n (get 0 s.routes.req n) (get 0 r.req n) t) (fun t n => commitLine_frame n _ _ t) _ { s with routes := r }

/-! ### Beats to the tiles (10 R263, R272) -/

/-- What the engine's beats reach: the ring, the tiles on it, and the cause of a ring failure. -/
def RingOnly (s t : State) : Prop := ∃ g ts q, t = { s with gate := g, tiles := ts, irq := q }

theorem RingOnly.refl (s : State) : RingOnly s s := ⟨s.gate, s.tiles, s.irq, rfl⟩

theorem RingOnly.trans {s t u : State} (h : RingOnly s t) (k : RingOnly t u) : RingOnly s u := by
  obtain ⟨_, _, _, rfl⟩ := h
  obtain ⟨g, ts, q, rfl⟩ := k
  exact ⟨g, ts, q, rfl⟩

theorem ringOnly_ringFail (which : RingCase) (g : TileNo) (kind : RingKind) (s : State) : RingOnly s (ringFail which g kind s) := by
  unfold ringFail
  dsimp only
  split <;> exact ⟨_, _, _, rfl⟩

theorem ringOnly_ringSendAll (kind : RingKind) (g : Nat) (l : List (Nat × BitVec 4 × BitVec 128)) (f : Tile → Tile) (s : State) :
    RingOnly s (ringSendAll kind g l f s) := by
  unfold ringSendAll
  dsimp only
  split
  · exact .refl s
  · split
    · split <;> exact ⟨_, _, _, rfl⟩
    · exact RingOnly.trans (t := ringSaw g _ _ s) ⟨_, _, _, rfl⟩ (ringOnly_ringFail _ _ _ _)

/-- A tile that has been asked to apply. -/
def asked (t : Tile) : Tile := { t with apply := true }

theorem ringOnly_sendApply (g : Nat) (s : State) : RingOnly s (sendApply g s) := ringOnly_ringSendAll .apply g [(0, 0, 0)] asked s

theorem RingOnly.foldl {β : Type} {f : State → β → State} (h : ∀ s b, RingOnly s (f s b)) (l : List β) (s : State) :
    RingOnly s (l.foldl f s) := by
  induction l generalizing s with
  | nil => exact .refl s
  | cons b r ih => exact (h s b).trans (ih _)

/-- The pending shadow of a tile, where it has one, is its shadow (13 R339). -/
def shadowTaken (g : Nat) (s : State) : State :=
  match get none s.gate.pendSh g with
  | some r => setPendShadow g none (setGateShadow g r s)
  | none => s

theorem commitTile_eq (g : Nat) (s : State) : commitTile g s = sendApply g (shadowTaken g s) := rfl

theorem shadowTaken_frame (g : Nat) (s : State) : ∃ sh pend, shadowTaken g s =
    { s with gate := { s.gate with shadow := sh, pendSh := pend } } := by
  unfold shadowTaken
  split
  · exact ⟨_, _, rfl⟩
  · exact ⟨s.gate.shadow, s.gate.pendSh, rfl⟩

theorem ringOnly_commitTile (g : Nat) (s : State) : RingOnly s (commitTile g s) := by
  obtain ⟨sh, pend, h⟩ := shadowTaken_frame g s
  rw [commitTile_eq, h]
  exact RingOnly.trans ⟨_, _, _, rfl⟩ (ringOnly_sendApply g _)

/-- A beat reaches the checker of tile `g`: the ring runs, the tile is on it, and its checker is out of reset (10 R272, R273). -/
def reached (s : State) (g : Nat) : Bool := s.gate.rstN && present s g && (tile s g).chkOn

theorem sendApply_gate (g : Nat) (s : State) : (sendApply g s).gate.rstN = s.gate.rstN ∧ (sendApply g s).gate.map = s.gate.map := by
  unfold sendApply ringSend ringSendAll ringFail
  dsimp only
  split
  · exact ⟨rfl, rfl⟩
  · split
    · split <;> exact ⟨rfl, rfl⟩
    · split <;> exact ⟨rfl, rfl⟩

theorem tile_ringFail (which : RingCase) (g : TileNo) (kind : RingKind) (s : State) (j : Nat) :
    tile (ringFail which g kind s) j = tile s j := by
  unfold ringFail
  dsimp only
  split <;> rfl

/-- APPLY asks the tile that it reaches to apply, and no other. -/
theorem tile_sendApply (g : Nat) (s : State) (j : Nat) : tile (sendApply g s) j =
    if j = g ∧ reached s g = true then asked (tile s g) else tile s j := by
  unfold sendApply ringSend ringSendAll reached
  cases hring : s.gate.rstN with
  | false => simp
  | true =>
    cases hon : present s g with
    | false =>
      simp [tile_ringFail]
      rfl
    | true =>
      cases hchk : (tile s g).chkOn with
      | false => simp; rfl
      | true =>
        simp
        exact tile_setTile s g j (asked (tile s g))

theorem tile_commitTile (g : Nat) (s : State) (j : Nat) : tile (commitTile g s) j =
    if j = g ∧ reached s g = true then asked (tile s g) else tile s j := by
  obtain ⟨sh, pend, h⟩ := shadowTaken_frame g s
  rw [commitTile_eq, h, tile_sendApply]
  rfl

theorem commitTile_gate (g : Nat) (s : State) : (commitTile g s).gate.rstN = s.gate.rstN ∧ (commitTile g s).gate.map = s.gate.map := by
  obtain ⟨sh, pend, h⟩ := shadowTaken_frame g s
  rw [commitTile_eq, h]
  exact sendApply_gate g _

theorem reached_commitTile (g : Nat) (s : State) (j : Nat) : reached (commitTile g s) j = reached s j := by
  obtain ⟨hring, hmap⟩ := commitTile_gate g s
  have hchk : (tile (commitTile g s) j).chkOn = (tile s j).chkOn := by
    rw [tile_commitTile]
    split
    case isTrue h => rw [h.1]; rfl
    case isFalse => rfl
  simp only [reached, present, hring, hmap, hchk]

/-- The tiles that a commit selects are asked to apply, one after the other. -/
def askTiles (gates : BitVec 128) (l : List Nat) (s : State) : State :=
  l.foldl (fun s g => if gates.getLsbD g then commitTile g s else s) s

theorem ringOnly_askTiles (gates : BitVec 128) (l : List Nat) (s : State) : RingOnly s (askTiles gates l s) := by
  refine RingOnly.foldl (fun t g => ?_) l s
  split
  · exact ringOnly_commitTile g t
  · exact .refl t

theorem tile_askTiles {gates : BitVec 128} {g : Nat} (hsel : gates.getLsbD g = true) (l : List Nat) {s : State}
    (hreach : reached s g = true) :
    tile (askTiles gates l s) g = if g ∈ l then asked (tile s g) else tile s g := by
  induction l generalizing s with
  | nil => rfl
  | cons k r ih =>
    by_cases hk : k = g
    · subst hk
      have hreach' : reached (commitTile k s) k = true := (reached_commitTile k s k).trans hreach
      have hstep : askTiles gates (k :: r) s = askTiles gates r (commitTile k s) := by
        simp only [askTiles, List.foldl_cons, hsel, if_true]
      have hself : tile (commitTile k s) k = asked (tile s k) := by rw [tile_commitTile, if_pos ⟨rfl, hreach⟩]
      rw [hstep, ih hreach', hself, if_pos List.mem_cons_self]
      split <;> rfl
    · have hstep : ∃ t, askTiles gates (k :: r) s = askTiles gates r t ∧ tile t g = tile s g ∧ reached t g = true := by
        by_cases hsk : gates.getLsbD k = true
        · refine ⟨commitTile k s, by simp only [askTiles, List.foldl_cons, hsk, if_true], ?_, (reached_commitTile k s g).trans hreach⟩
          rw [tile_commitTile, if_neg fun h => hk h.1.symm]
        · exact ⟨s, by simp only [askTiles, List.foldl_cons, hsk, if_false, Bool.false_eq_true], rfl, hreach⟩
      obtain ⟨t, ht, htile, hreach'⟩ := hstep
      rw [ht, ih hreach', htile]
      simp only [List.mem_cons, Ne.symm hk, false_or]

/-! ### The tiles that a commit waits for -/

/-- The bits of some numbers below `n`, summed, are those numbers. -/
theorem testBit_sum_bits (p : Nat → Bool) (n g : Nat) :
    (((List.range n).filter p).foldl (fun n g => n + 2 ^ g) 0).testBit g = (decide (g < n) && p g) ∧
    ((List.range n).filter p).foldl (fun n g => n + 2 ^ g) 0 < 2 ^ n := by
  induction n with
  | zero => simp
  | succ n ih =>
    obtain ⟨hbit, hlt⟩ := ih
    rw [List.range_succ, List.filter_append, List.foldl_append]
    generalize ((List.range n).filter p).foldl (fun n g => n + 2 ^ g) 0 = x at hbit hlt
    cases hp : p n with
    | false =>
      simp only [List.filter_cons, List.filter_nil, hp, Bool.false_eq_true, if_false, List.foldl_nil]
      refine ⟨?_, by omega⟩
      rw [hbit]
      rcases Nat.lt_trichotomy g n with h | rfl | h
      · simp [h, Nat.lt_succ_of_lt h]
      · simp [hp]
      · simp [Nat.not_lt.mpr (Nat.le_of_lt h), Nat.not_lt.mpr h]
    | true =>
      simp only [List.filter_cons, List.filter_nil, hp, if_true, List.foldl_cons, List.foldl_nil]
      refine ⟨?_, by omega⟩
      rw [Nat.add_comm]
      rcases Nat.lt_trichotomy g n with h | rfl | h
      · rw [Nat.testBit_two_pow_add_gt h, hbit]
        simp [h, Nat.lt_succ_of_lt h]
      · rw [Nat.testBit_two_pow_add_eq, hbit]
        simp [hp]
      · have hbig : 2 ^ n + x < 2 ^ g := by
          have := Nat.pow_le_pow_right (n := 2) (by decide) h
          omega
        rw [Nat.testBit_lt_two_pow hbig]
        simp [Nat.not_lt.mpr h]

/-- The tiles that the commit of tick T waits for: those selected, on the ring, with their checker out of reset. -/
def awaitedTiles (s : State) : BitVec 128 :=
  s.com.gates &&& s.gate.map &&& BitVec.ofNat 128 (((List.range 128).filter (fun g => (tile s g).chkOn)).foldl (fun n g => n + 2 ^ g) 0)

theorem getLsbD_awaitedTiles {s : State} {g : Nat} (hg : g < 128) (hsel : s.com.gates.getLsbD g = true) (hreach : reached s g = true) :
    (awaitedTiles s).getLsbD g = true := by
  simp only [reached, present, Bool.and_eq_true] at hreach
  obtain ⟨⟨-, hmap⟩, hchk⟩ := hreach
  obtain ⟨hbit, -⟩ := testBit_sum_bits (fun g => (tile s g).chkOn) 128 g
  simp only [awaitedTiles, BitVec.getLsbD_and, hsel, hmap, BitVec.getLsbD_ofNat, hbit, hg, hchk, decide_true, Bool.and_self]

/-! ### The effects of tick T -/

/-- Epoch, REC_PEND and what the commit waits for, before routes and tiles. -/
def mainBegun (s : State) : State :=
  { s with
    dig := { s.dig with epoch := s.com.ep, recPend := true }
    com := { s.com with main := true, tiles := awaitedTiles s } }

/-- With ROUTE the routes are what the shadows held at the end of the ccyc before. -/
def mainRouted (s : State) : State := if bit s.com.sel 9 then applyRoutes (oldShadow s) (mainBegun s) else mainBegun s

theorem mainRouted_frame (s : State) : ∃ ls, mainRouted s =
    { mainBegun s with routes := if bit s.com.sel 9 then oldShadow s else s.routes, lines := ls } := by
  unfold mainRouted
  cases bit s.com.sel 9 with
  | false => exact ⟨s.lines, rfl⟩
  | true => exact applyRoutes_frame (oldShadow s) (mainBegun s)

theorem armedMain_of_unchanged {s : State} (hsel : s.com.selL = s.com.sel) (hgates : s.com.gatesL = s.com.gates)
    (hroutes : s.com.snapR = oldShadow s) :
    armedMain s = takeMany (askTiles s.com.gates (List.range 128) (mainRouted s)) := by
  have hbegun : armedRoutes (mainBegun s) = oldShadow s := armedRoutes_of_unchanged (s := mainBegun s) hroutes
  unfold armedMain
  rw [armedSel_of_unchanged hsel, armedGates_of_unchanged hgates]
  simp only [mainRouted, ← hbegun]
  rfl

/-- All that tick T changes: epoch and REC_PEND, the routes with the counters of their lines, and what the beats to the tiles reach. -/
theorem askTiles_mainRouted_frame (s : State) : ∃ ls g ts q, askTiles s.com.gates (List.range 128) (mainRouted s) =
    { mainBegun s with
      routes := if bit s.com.sel 9 then oldShadow s else s.routes, lines := ls, gate := g, tiles := ts, irq := q } := by
  obtain ⟨ls, hrouted⟩ := mainRouted_frame s
  obtain ⟨g, ts, q, hasked⟩ := ringOnly_askTiles s.com.gates (List.range 128) (mainRouted s)
  exact ⟨ls, g, ts, q, by rw [hasked, hrouted]⟩

theorem tile_askTiles_mainRouted {s : State} {g : Nat} (hg : g < 128) (hsel : s.com.gates.getLsbD g = true)
    (hreach : reached s g = true) :
    tile (askTiles s.com.gates (List.range 128) (mainRouted s)) g = asked (tile s g) := by
  obtain ⟨ls, hrouted⟩ := mainRouted_frame s
  have hreach' : reached (mainRouted s) g = true := by rw [hrouted]; exact hreach
  rw [tile_askTiles hsel _ hreach', if_pos (List.mem_range.mpr hg), hrouted]
  rfl

/-! ### The end of a commit (11 R304) -/

theorem settleArmed_of_not_main {s : State} (h : s.com.main = false) : settleArmed s = s := by
  simp only [settleArmed, h, Bool.false_eq_true, false_and, and_false, if_false]

theorem settleArmed_of_awaited {s : State} (h : s.com.tiles ≠ 0) : settleArmed s = s := by
  simp only [settleArmed, h, false_and, and_false, if_false]

/-- With its effects made, no peg commit and no tile to wait for, the commit is armed no more. -/
theorem settleArmed_of_nothing_left {s : State} (hmain : s.com.main = true) (hpegs : s.com.pegs = true) (hwrap : s.com.wrap = none)
    (htiles : s.com.tiles = 0) : (settleArmed s).com.armed = false := by
  cases harmed : s.com.armed with
  | false => simp [settleArmed, harmed]
  | true => simp [settleArmed, harmed, hmain, hpegs, hwrap, htiles]

/-! ### COMMIT_APPLY -/

section

variable {s : State} (hon : coreOn s = true) (harmed : s.com.armed = true) (hmain : s.com.main = false)
include hon harmed hmain

/-- Before T the peg commit is all that there is to do. -/
theorem exec_commitApply_pegs (hpegs : s.com.pegs = false) (hbefore : s.clk.ridge.toNat < s.com.t.toNat)
    (hnear : s.com.t.toNat ≤ s.clk.ridge.toNat + 2) : exec .commitApply s = .next (armedPegs s) := by
  obtain ⟨cs, w, n, hframe⟩ := armedPegs_frame s
  have hlater : ¬(¬ (armedPegs s).com.main = true ∧ (armedPegs s).com.t.toNat ≤ (armedPegs s).clk.ridge.toNat) := by
    rw [hframe]
    exact fun h => absurd h.2 (Nat.not_le.mpr hbefore)
  have hsettled : settleArmed (armedPegs s) = armedPegs s := settleArmed_of_not_main (by rw [hframe]; exact hmain)
  calc exec .commitApply s = execCommitApply s := rfl
    _ = .next (armedPegs s) := by
      have hpegs' : ¬ s.com.pegs = true := Bool.eq_false_iff.mp hpegs
      simp only [execCommitApply, if_pos (And.intro hon harmed), if_pos (And.intro hpegs' hnear), if_neg hlater, hsettled]

/-- At T, with the peg commit formed, its other effects come. -/
theorem exec_commitApply_main (hpegs : s.com.pegs = true) (hreached : s.com.t.toNat ≤ s.clk.ridge.toNat) :
    exec .commitApply s = .next (settleArmed (armedMain s)) :=
  calc exec .commitApply s = execCommitApply s := rfl
    _ = .next (settleArmed (armedMain s)) := by
      have hmain' : ¬ s.com.main = true := Bool.eq_false_iff.mp hmain
      have hformed : ¬(¬ s.com.pegs = true ∧ s.com.t.toNat ≤ s.clk.ridge.toNat + 2) := fun h => h.1 hpegs
      simp only [execCommitApply, if_pos (And.intro hon harmed), if_neg hformed, if_pos (And.intro hmain' hreached)]

end

/-- Settles O50: the peg commit by what a write for an armed commit leaves in the list, tick T by the frame of its effects, and by the
tiles that its beats reach. -/
theorem armedCommitsTakeEffect : Obligations.ArmedCommitsTakeEffect := by
  intro s hon harmed hsel hgates hroutes
  refine ⟨fun hpegs hmain hbefore hnear => ?pegs, fun hpegs hmain hwrap hreached => ?main⟩
  case pegs =>
    obtain ⟨cs, w, n, hframe⟩ := armedPegs_frame s
    have hcommits : (armedPegs s).pegCommits = (pegCommitWrite (fld s.com.sel 0 8) (bit s.com.sel 8) true s).pegCommits := by
      rw [← armedSel_of_unchanged hsel]
      rfl
    refine ⟨_, exec_commitApply_pegs hon harmed hmain hpegs hbefore hnear, ?_, ?_, ?_, ?_, fun hnamed => ?_, ?_, ?_, ?_⟩
    case refine_5 =>
      obtain ⟨c, hc, hwrap, hprio, hports⟩ := pegCommitWrite_armed hnamed s
      refine ⟨c, hcommits ▸ hc, hwrap, hprio, fun n hn hbit => hports n ?_⟩
      simpa [fld, bit, hn] using hbit
    case refine_8 =>
      rw [hframe]
      exact ⟨fun _ => rfl, fun _ => rfl⟩
    case refine_2 =>
      rw [hframe]
      exact harmed
    all_goals rw [hframe]
  case main =>
    obtain ⟨ls, g, ts, q, hframe⟩ := askTiles_mainRouted_frame s
    obtain ⟨com, hsettle⟩ := settleArmed_frame (armedMain s)
    have hmainEq := armedMain_of_unchanged hsel hgates hroutes
    have hcom : (armedMain s).com = { s.com with main := true, tiles := awaitedTiles s } := by rw [hmainEq, hframe]; rfl
    refine ⟨_, exec_commitApply_main hon harmed hmain hpegs hreached, ?_, ?_, ?_, ?_, fun hnone => ?_, fun g hg hsel hon hchk hring => ?_, ?_, ?_⟩
    case refine_5 =>
      refine settleArmed_of_nothing_left ?_ ?_ ?_ ?_
      · rw [hcom]
      · rw [hcom]; exact hpegs
      · rw [hcom]; exact hwrap
      · rw [hcom]
        simp [awaitedTiles, hnone]
    case refine_6 =>
      have hreach : reached s g = true := by simp only [reached, hon, hchk, hring, Bool.and_self]
      have hawaited : (armedMain s).com.tiles ≠ 0 := by
        intro h0
        have hbit := getLsbD_awaitedTiles hg hsel hreach
        rw [hcom] at h0
        simp [show awaitedTiles s = 0 from h0] at hbit
      have htile : tile (armedMain s) g = asked (tile s g) := by
        rw [hmainEq]
        exact tile_askTiles_mainRouted hg hsel hreach
      rw [settleArmed_of_awaited hawaited, htile, hcom]
      exact ⟨rfl, rfl, harmed⟩
    case refine_8 =>
      rw [hsettle, hmainEq, hframe]
      exact ⟨fun _ => rfl, fun _ => rfl⟩
    all_goals
      rw [hsettle, hmainEq, hframe]
      rfl

end Sys2Proof.Machine
end

section

/-! PROOFS. Ridge time and what stands beside it in the clock (O43; 11 R278): one rule for each operation of the model, that it leaves
the clock as it is, and ridge time where it does not leave the whole clock. The operations of the end of a ccyc leave the power
controller too, so that AO is powered at the next TICK edge. -/

namespace Sys2Proof.Machine

@[simp] theorem foldl_clk {β : Type} {f : State → β → State} (h : ∀ s b, (f s b).clk = s.clk) (l : List β) (s : State) :
    (l.foldl f s).clk = s.clk := by
  induction l generalizing s with
  | nil => rfl
  | cons b r ih => exact (ih _).trans (h s b)

@[simp] theorem foldl_pwr {β : Type} {f : State → β → State} (h : ∀ s b, (f s b).pwr = s.pwr) (l : List β) (s : State) :
    (l.foldl f s).pwr = s.pwr := by
  induction l generalizing s with
  | nil => rfl
  | cons b r ih => exact (ih _).trans (h s b)

theorem foldl_clk_pwr {β : Type} {f : State → β → State} (h : ∀ s b, (f s b).clk = s.clk ∧ (f s b).pwr = s.pwr)
    (l : List β) (s : State) :
    (l.foldl f s).clk = s.clk ∧ (l.foldl f s).pwr = s.pwr :=
  ⟨foldl_clk (fun s b => (h s b).1) l s, foldl_pwr (fun s b => (h s b).2) l s⟩

@[simp] theorem ite_clk (p : Prop) [Decidable p] (s t : State) : (if p then s else t).clk = if p then s.clk else t.clk := by
  split <;> rfl

@[simp] theorem ite_pwr (p : Prop) [Decidable p] (s t : State) : (if p then s else t).pwr = if p then s.pwr else t.pwr := by
  split <;> rfl

/-- Both branches keep ridge time: the shape of the long chains of addresses in a host write. -/
theorem ridge_of_ite {p : Prop} [Decidable p] {s t u : State} (hs : s.clk.ridge = u.clk.ridge) (ht : t.clk.ridge = u.clk.ridge) :
    (if p then s else t).clk.ridge = u.clk.ridge := by
  split <;> assumption

theorem ite_ridge (p : Prop) [Decidable p] (c d : Clock) : (if p then c else d).ridge = if p then c.ridge else d.ridge := by
  split <;> rfl

variable (ch g w n m : Nat) (v : Word) (s : State)

theorem mapPorts_pwr (f : Port → Port) : (mapPorts f s).pwr = s.pwr := foldl_pwr (by simp) _ _
@[simp] theorem withdraw_pwr : (withdraw ch s).pwr = s.pwr := by
  unfold withdraw
  simp [mapPorts_pwr]
@[simp] theorem noteBefore_pwr : (noteBefore ch s).pwr = s.pwr := by
  unfold noteBefore
  split <;> simp
@[simp] theorem finish_pwr (code : BitVec 8) (r : Results) : (finish code r s).pwr = s.pwr := rfl

/-! ### The mailbox, channel states and what a ccyc owes (09 R243; 13 R334) -/

@[simp] theorem takeBackCause_clk (k : Nat) : (takeBackCause k s).clk = s.clk := by simp [takeBackCause]
@[simp] theorem loseEntry_clk_pwr : (loseEntry s).clk = s.clk ∧ (loseEntry s).pwr = s.pwr := by simp [loseEntry]
@[simp] theorem popLog_clk : (popLog s).clk = s.clk := by
  unfold popLog
  split <;> simp
@[simp] theorem growCount_clk : (growCount s).clk = s.clk := by simp [growCount]
@[simp] theorem writeCount_clk (v : BitVec 16) : (writeCount v s).clk = s.clk := by simp [writeCount]
@[simp] theorem representable_clk : (representable s).clk = s.clk := by simp [representable]
@[simp] theorem hostWrote_clk : (hostWrote w s).clk = s.clk := by simp [hostWrote]
@[simp] theorem answer_clk (data : Word) (err : Bool) : (answer data err s).clk = s.clk := by simp [answer]
@[simp] theorem hostRead_clk : (hostRead v s).clk = s.clk := by simp [hostRead]
@[simp] theorem clearCaptures_clk : (clearCaptures s).clk = s.clk := by simp [clearCaptures]
@[simp] theorem endTags_clk : (endTags ch s).clk = s.clk := foldl_clk (by simp) _ _
@[simp] theorem staleFetch_clk_pwr :
    (staleFetch ch s).clk = s.clk ∧ (staleFetch ch s).pwr = s.pwr := foldl_clk_pwr (by simp) _ _
@[simp] theorem endPark_clk_pwr : (endPark s).clk = s.clk ∧ (endPark s).pwr = s.pwr := by
  rcases endPark_eq s with h | ⟨code, h⟩ <;> simp [h]
@[simp] theorem pruneQuiesces_clk_pwr : (pruneQuiesces s).clk = s.clk ∧ (pruneQuiesces s).pwr = s.pwr := by simp [pruneQuiesces]
@[simp] theorem goReady_clk_pwr : (goReady ch s).clk = s.clk ∧ (goReady ch s).pwr = s.pwr := by simp [goReady]
@[simp] theorem completeWait_clk_pwr :
    (completeWait ch s).clk = s.clk ∧ (completeWait ch s).pwr = s.pwr := by simp [completeWait]
@[simp] theorem endAbort_clk : (endAbort ch s).clk = s.clk := by simp [endAbort]
@[simp] theorem oweLog_clk_pwr (kind : BitVec 5) (r : FaultRec) :
    (oweLog kind ch r s).clk = s.clk ∧ (oweLog kind ch r s).pwr = s.pwr := by simp [oweLog]
@[simp] theorem countHalt_clk_pwr (e : LogEntry) :
    (countHalt e s).clk = s.clk ∧ (countHalt e s).pwr = s.pwr := by simp [countHalt]
@[simp] theorem payLog_clk_pwr (e : LogEntry) : (payLog e s).clk = s.clk ∧ (payLog e s).pwr = s.pwr := by simp [payLog]
@[simp] theorem payLogs_clk_pwr : (payLogs s ch).clk = s.clk ∧ (payLogs s ch).pwr = s.pwr := foldl_clk_pwr (by simp) _ _
@[simp] theorem sealCcyc_clk_pwr : (sealCcyc s).clk = s.clk ∧ (sealCcyc s).pwr = s.pwr := by simp [sealCcyc]
@[simp] theorem dropNote_clk : (dropNote ch s).clk = s.clk := by simp [dropNote]
@[simp] theorem raiseBy_clk_pwr (e : Event) : (raiseBy ch e s).clk = s.clk ∧ (raiseBy ch e s).pwr = s.pwr := by simp [raiseBy]
@[simp] theorem takeBackRaises_clk : (takeBackRaises ch s).clk = s.clk := by simp [takeBackRaises]
@[simp] theorem takeBackPulse_clk : (takeBackPulse ch s).clk = s.clk := by
  unfold takeBackPulse
  split <;> simp
@[simp] theorem dropClaim_clk_pwr : (dropClaim ch s).clk = s.clk ∧ (dropClaim ch s).pwr = s.pwr := by simp [dropClaim]

/-! ### Halting, parking, abort and start (04 R99; 09 R224 to R242) -/

@[simp] theorem markUnneeded_clk_pwr :
    (markUnneeded ch s).clk = s.clk ∧ (markUnneeded ch s).pwr = s.pwr := foldl_clk_pwr (by simp) _ _
@[simp] theorem haltPrep_clk_pwr : (haltPrep ch s).clk = s.clk ∧ (haltPrep ch s).pwr = s.pwr := by simp [haltPrep]
@[simp] theorem haltCore_clk_pwr (r : FaultRec) :
    (haltCore ch r s).clk = s.clk ∧ (haltCore ch r s).pwr = s.pwr := by simp [haltCore]
@[simp] theorem raiseHeld_clk_pwr : (raiseHeld ch s).clk = s.clk ∧ (raiseHeld ch s).pwr = s.pwr := by
  unfold raiseHeld
  split <;> simp
@[simp] theorem dropHolder_clk_pwr : (dropHolder m s).clk = s.clk ∧ (dropHolder m s).pwr = s.pwr := foldl_clk_pwr (by simp) _ _
@[simp] theorem releaseMover_clk_pwr : (releaseMover m s).clk = s.clk ∧ (releaseMover m s).pwr = s.pwr := by
  unfold releaseMover
  dsimp only
  split <;> simp
@[simp] theorem releaseOf_clk_pwr : (releaseOf ch s).clk = s.clk ∧ (releaseOf ch s).pwr = s.pwr := by
  unfold releaseOf
  split <;> simp
@[simp] theorem enterHalt_clk_pwr (r : FaultRec) :
    (enterHalt ch r s).clk = s.clk ∧ (enterHalt ch r s).pwr = s.pwr := by simp [enterHalt]
@[simp] theorem haltNow_clk_pwr (r : FaultRec) : (haltNow ch r s).clk = s.clk ∧ (haltNow ch r s).pwr = s.pwr := by
  unfold haltNow
  split <;> simp
@[simp] theorem showPend_clk : (showPend ch s).clk = s.clk := by simp [showPend]
@[simp] theorem holdFault_clk (r : FaultRec) (haltAt : Nat) : (holdFault ch r haltAt s).clk = s.clk := by
  unfold holdFault
  dsimp only
  split <;> simp
@[simp] theorem detect_clk (r : FaultRec) (haltAt : Nat) : (detect ch r haltAt s).clk = s.clk := by simp [detect]
@[simp] theorem enterHeld_clk_pwr : (enterHeld ch s).clk = s.clk ∧ (enterHeld ch s).pwr = s.pwr := by
  unfold enterHeld
  dsimp only
  split <;> simp
@[simp] theorem haltsDue_clk_pwr : (haltsDue s).clk = s.clk ∧ (haltsDue s).pwr = s.pwr := foldl_clk_pwr (by simp) _ _
@[simp] theorem enterPark_clk (src : Bool) : (enterPark ch src s).clk = s.clk := by simp [enterPark]
@[simp] theorem unselect_clk : (unselect ch s).clk = s.clk := by
  unfold unselect
  split <;> simp
@[simp] theorem yieldProgress_clk : (yieldProgress ch s).clk = s.clk := by
  unfold yieldProgress
  split <;> simp
@[simp] theorem yieldRaise_clk : (yieldRaise ch s).clk = s.clk := by
  unfold yieldRaise
  split <;> simp
@[simp] theorem unstop_clk : (unstop ch s).clk = s.clk := by simp [unstop]
@[simp] theorem unstale_clk : (unstale ch s).clk = s.clk := by simp [unstale]
@[simp] theorem abort_clk : (abort ch s).clk = s.clk := by simp [abort]
@[simp] theorem startChannel_clk : (startChannel ch s).clk = s.clk := by simp [startChannel]
@[simp] theorem enableChannel_clk : (enableChannel ch s).clk = s.clk := by simp [enableChannel]
@[simp] theorem startAgain_clk : (startAgain s).clk = s.clk := foldl_clk (by simp) _ _
@[simp] theorem clearLine_clk : (clearLine n s).clk = s.clk := by simp [clearLine]
@[simp] theorem clearLinesOf_clk : (clearLinesOf ch s).clk = s.clk := foldl_clk (by simp) _ _
@[simp] theorem clearAllLines_clk : (clearAllLines s).clk = s.clk := by simp [clearAllLines]
@[simp] theorem resetChannel_clk : (resetChannel ch s).clk = s.clk := by
  unfold resetChannel
  dsimp only
  split <;> simp
@[simp] theorem comeTo_clk_pwr : (comeTo ch s).clk = s.clk ∧ (comeTo ch s).pwr = s.pwr := by
  unfold comeTo
  dsimp only
  split <;> simp
@[simp] theorem goOn_clk_pwr (k : Nat) : (goOn ch k s).clk = s.clk ∧ (goOn ch k s).pwr = s.pwr := by simp [goOn]
@[simp] theorem past_clk_pwr : (past ch n s).clk = s.clk ∧ (past ch n s).pwr = s.pwr := by simp [past]

/-! ### The instructions of a channel and its beats (05; 06 R171 to R175) -/

@[simp] theorem deadlineHalt_clk (staleEn : Bool) (stale : Event) :
    (deadlineHalt ch staleEn stale s).clk = s.clk := by simp [deadlineHalt]
@[simp] theorem fencesMet_clk_pwr : (fencesMet s).clk = s.clk ∧ (fencesMet s).pwr = s.pwr := by
  refine foldl_clk_pwr (fun s ch => ?_) _ _
  dsimp only
  split
  · split <;> simp
  · simp
@[simp] theorem noteBeat_clk (tag : Tag) (k : Nat) (poison : Bool) (bad : Bool) :
    (noteBeat n tag k poison bad s).clk = s.clk := by simp [noteBeat]
@[simp] theorem markFailed_clk (tag : Tag) (stale : Bool) : (markFailed n tag stale s).clk = s.clk := by simp [markFailed]
@[simp] theorem unitLeft_clk (u : Nat) (r : Run) : (unitLeft ch u r s).clk = s.clk := by simp [unitLeft]
@[simp] theorem markRead_clk (st : Staged) : (markRead ch n st s).clk = s.clk := by
  unfold markRead
  split <;> simp
@[simp] theorem rebuildHalt_clk (r : Run) (st : Staged) : (rebuildHalt ch r st s).clk = s.clk := by simp [rebuildHalt]
@[simp] theorem sendPoison_clk (k : Nat) (sl : Slot) (r : Run) (bad : Bool) (last : Bool) :
    (sendPoison n ch k sl r bad last s).clk = s.clk := by simp [sendPoison]
@[simp] theorem sendGood_clk (k : Nat) (sl : Slot) (r : Run) (src : List Staged) (fwd : Bool) (last : Bool) :
    (sendGood n ch k sl r src fwd last s).clk = s.clk := by
  unfold sendGood
  dsimp only
  split <;> simp
@[simp] theorem sendBeat_clk (n ch k : Nat) (sl : Slot) : (sendBeat n ch k sl s).clk = s.clk := by
  unfold sendBeat
  split
  · rfl
  · split
    · simp
    · split <;> simp
@[simp] theorem presentRead_clk (q : Request) : (presentRead n q s).clk = s.clk := by simp [presentRead]
@[simp] theorem presentWrite_clk (q : Request) : (presentWrite n q s).clk = s.clk := by
  unfold presentWrite
  dsimp only
  split <;> simp

/-! ### Retirement, reads and writes of a mover, responses (02 R47 to R63; 05 R127; 06 R165 to R176) -/

@[simp] theorem retire_clk : (retire ch s).clk = s.clk := by
  unfold retire
  split <;> simp
@[simp] theorem settle_clk : (settle ch s).clk = s.clk := by simp [settle]
@[simp] theorem stopAccess_clk (r : FaultRec) : (stopAccess ch r s).clk = s.clk := by simp [stopAccess]
@[simp] theorem applyResume_clk : (applyResume ch s).clk = s.clk := by simp [applyResume]
@[simp] theorem applySkip_clk : (applySkip ch s).clk = s.clk := by simp [applySkip]
@[simp] theorem applyPending_clk : (applyPending ch s).clk = s.clk := by
  simp only [applyPending]
  repeat' split
  all_goals simp
@[simp] theorem logParity_clk (dir : BitVec 2) (tag : Tag) (ch : Option Nat) :
    (logParity n dir tag ch s).clk = s.clk := by simp [logParity]
@[simp] theorem logUnknown_clk (dir : BitVec 2) (tag : Tag) (resp : BitVec 3) :
    (logUnknown n dir tag resp s).clk = s.clk := by simp [logUnknown]
@[simp] theorem groupArrives_clk (a : Addr) (d : BitVec 256) : (groupArrives ch a d s).clk = s.clk := by simp [groupArrives]
@[simp] theorem heldGroups_clk : (heldGroups s).clk = s.clk := by
  rw [heldGroups_eq_foldl]
  exact foldl_clk heldGroup_clk _ _

/-! ### Ports and request lines (03 R66 to R73; 07 R193) -/

@[simp] theorem beginCredits_clk : (beginCredits s).clk = s.clk := by simp [beginCredits]
@[simp] theorem beginCycle_clk : (beginCycle n s).clk = s.clk := by
  simp only [beginCycle]
  repeat' split
  all_goals simp
@[simp] theorem beginCycles_clk : (beginCycles s).clk = s.clk := by simp [beginCycles]
@[simp] theorem countEdge_clk_pwr : (countEdge n s).clk = s.clk ∧ (countEdge n s).pwr = s.pwr := by simp [countEdge]
@[simp] theorem handleEdge_clk : (handleEdge s n).clk = s.clk := by
  unfold handleEdge
  split <;> simp
@[simp] theorem clockLines_clk_pwr : (clockLines s).clk = s.clk ∧ (clockLines s).pwr = s.pwr := foldl_clk_pwr (by simp) _ _
@[simp] theorem endWake_clk_pwr : (endWake n s).clk = s.clk ∧ (endWake n s).pwr = s.pwr := by
  unfold endWake
  split <;> simp
@[simp] theorem endOver_clk_pwr : (endOver n s).clk = s.clk ∧ (endOver n s).pwr = s.pwr := by
  unfold endOver
  split <;> simp
@[simp] theorem endLines_clk_pwr : (endLines s).clk = s.clk ∧ (endLines s).pwr = s.pwr := by simp [endLines]
@[simp] theorem loadAllDetectors_clk : (loadAllDetectors s).clk = s.clk := foldl_clk (by simp) _ _
@[simp] theorem takeMany_clk_pwr : (takeMany s).clk = s.clk ∧ (takeMany s).pwr = s.pwr := by simp [takeMany]

/-! ### Events, waits and instants (03 R78 to R80; 05 R147) -/

@[simp] theorem effEvtSw_clk (event : Event) : (effEvtSw event s).clk = s.clk := by simp [effEvtSw]
@[simp] theorem joinLine_clk_pwr (e : Nat) : (joinLine m e s).clk = s.clk ∧ (joinLine m e s).pwr = s.pwr := by simp [joinLine]
@[simp] theorem placeEvent_clk_pwr (r : Routes) (e : Nat) :
    (placeEvent r e s).clk = s.clk ∧ (placeEvent r e s).pwr = s.pwr := by simp [placeEvent]
@[simp] theorem placeGlobals_clk_pwr (r : Routes) (mask : BitVec 64) :
    (placeGlobals r mask s).clk = s.clk ∧ (placeGlobals r mask s).pwr = s.pwr := foldl_clk_pwr (by simp) _ _
@[simp] theorem placeEvents_clk_pwr :
    (placeEvents s).clk = s.clk ∧ (placeEvents s).pwr = s.pwr := by simp [placeEvents]
@[simp] theorem passGlobal_clk (r : Routes) (e : Nat) : (passGlobal r e s).clk = s.clk := by simp [passGlobal]
@[simp] theorem wakeWaiters_clk_pwr (on : WaitOn) (hit : Nat → Bool) :
    (wakeWaiters on hit s).clk = s.clk ∧ (wakeWaiters on hit s).pwr = s.pwr := foldl_clk_pwr (by simp) _ _
@[simp] theorem completeFenced_clk_pwr : (completeFenced ch s).clk = s.clk ∧ (completeFenced ch s).pwr = s.pwr := by
  simp only [completeFenced, completeWait_clk_pwr]
  split
  · split <;> simp
  · simp
@[simp] theorem markFences_clk : (markFences s).clk = s.clk := foldl_clk (by simp) _ _
@[simp] theorem completeFences_clk_pwr :
    (completeFences s).clk = s.clk ∧ (completeFences s).pwr = s.pwr := by simp [completeFences]
@[simp] theorem endWaits_clk_pwr : (endWaits s).clk = s.clk ∧ (endWaits s).pwr = s.pwr := by simp [endWaits]
@[simp] theorem endChans_clk_pwr : (endChans s).clk = s.clk ∧ (endChans s).pwr = s.pwr := by simp [endChans]
@[simp] theorem endCore_clk_pwr : (endCore s).clk = s.clk ∧ (endCore s).pwr = s.pwr := by simp [endCore]
@[simp] theorem finishAborts_clk : (finishAborts s).clk = s.clk := foldl_clk (by simp) _ _
@[simp] theorem deliverEvents_clk : (deliverEvents s).clk = s.clk := foldl_clk (by simp) _ _
@[simp] theorem reachDeadline_clk : (reachDeadline ch s).clk = s.clk := by simp [reachDeadline]
@[simp] theorem effChStart_clk (ch : Chan) : (effChStart ch s).clk = s.clk := by simp [effChStart]
@[simp] theorem effChAbort_clk (ch : Chan) : (effChAbort ch s).clk = s.clk := by simp [effChAbort]
@[simp] theorem unpark_clk : (unpark ch s).clk = s.clk := by simp [unpark]
@[simp] theorem askPark_clk (src : Bool) : (askPark ch src s).clk = s.clk := by simp [askPark]
@[simp] theorem wantAck_clk : (wantAck n s).clk = s.clk := by simp [wantAck]
@[simp] theorem closeDomain_clk : (closeDomain n s).clk = s.clk := by simp [closeDomain]
@[simp] theorem refuse_clk : (refuse n ch s).clk = s.clk := by simp [refuse]
@[simp] theorem unstopAll_clk : (unstopAll s).clk = s.clk := by simp [unstopAll]
@[simp] theorem quiesceChannel_clk : (quiesceChannel ch s).clk = s.clk := by
  unfold quiesceChannel
  dsimp only
  split <;> simp
@[simp] theorem quiesce_clk : (quiesce n s).clk = s.clk := by
  unfold quiesce
  dsimp only
  split <;> simp
@[simp] theorem reqRises_clk : (reqRises n s).clk = s.clk := by
  simp only [reqRises]
  repeat' split
  all_goals simp
@[simp] theorem reqFalls_clk : (reqFalls n s).clk = s.clk :=
  (foldl_clk (by simp) _ _).trans (foldl_clk (by simp) _ _)
@[simp] theorem samplePd_clk : (samplePd n s).clk = s.clk := by simp [samplePd]
@[simp] theorem samplePds_clk : (samplePds s).clk = s.clk := by simp [samplePds]
@[simp] theorem wakeAbandoned_clk : (wakeAbandoned s).clk = s.clk := foldl_clk (by simp) _ _
@[simp] theorem tickHandshakes_clk : (tickHandshakes s).clk = s.clk := by simp [tickHandshakes]
@[simp] theorem setVmon_clk (level : Bool) : (setVmon level s).clk = s.clk := by simp [setVmon]
@[simp] theorem sampleVmon_clk : (sampleVmon s).clk = s.clk := by simp [sampleVmon]
@[simp] theorem stopNv_clk : (stopNv s).clk = s.clk := by simp [stopNv]

/-! ### The gate ring and its tiles (10 R260 to R273) -/

@[simp] theorem passStops_clk (i : Nat → List RingBeat) (o : Nat → List RingBeat) :
    (passStops i o s).clk = s.clk := by simp [passStops]
@[simp] theorem ringSaw_clk (tx : List RingBeat) (rx : List RingBeat) : (ringSaw g tx rx s).clk = s.clk := by simp [ringSaw]
@[simp] theorem ringFail_clk (which : RingCase) (g : TileNo) (kind : RingKind) : (ringFail which g kind s).clk = s.clk := by
  unfold ringFail
  dsimp only
  split <;> simp
@[simp] theorem ringSendAll_clk (kind : RingKind) (l : List (Nat × BitVec 4 × BitVec 128)) (f : Tile → Tile) :
    (ringSendAll kind g l f s).clk = s.clk := by simp [ringSendAll]
@[simp] theorem ringSend_clk (kind : RingKind) (quad : Nat) (wen : BitVec 4) (data : BitVec 128) (f : Tile → Tile) :
    (ringSend kind g quad wen data f s).clk = s.clk := by simp [ringSend]
@[simp] theorem setGateShadow_clk (r : Table Word) : (setGateShadow g r s).clk = s.clk := by simp [setGateShadow]
@[simp] theorem setPendShadow_clk (r : Option (Table Word)) : (setPendShadow g r s).clk = s.clk := by simp [setPendShadow]
@[simp] theorem stageQuads_clk (q : Table Word) : (stageQuads g q s).clk = s.clk := by simp [stageQuads]
@[simp] theorem sendEn_clk (en : Bool) : (sendEn g en s).clk = s.clk := by simp [sendEn]
@[simp] theorem loadTile_clk : (loadTile g s).clk = s.clk := by
  unfold loadTile
  dsimp only
  split <;> simp
@[simp] theorem openRing_clk : (openRing s).clk = s.clk := by simp [openRing]
@[simp] theorem takeCensus_clk (census : BitVec 128) : (takeCensus census s).clk = s.clk := by simp [takeCensus]
@[simp] theorem loadTiles_clk (census : BitVec 128) : (loadTiles census s).clk = s.clk := by simp [loadTiles]
@[simp] theorem sendStage_clk : (sendStage g s).clk = s.clk := by simp [sendStage]
@[simp] theorem sendApply_clk : (sendApply g s).clk = s.clk := by simp [sendApply]
@[simp] theorem writeRule_clk : (writeRule g w v s).clk = s.clk := by simp [writeRule]
@[simp] theorem writeEn_clk (en : Bool) : (writeEn g en s).clk = s.clk := by simp [writeEn]
@[simp] theorem popDenial_clk (pop : Bool) : (popDenial g pop s).clk = s.clk := by simp [popDenial]
@[simp] theorem writeTileWord_clk : (writeTileWord g w v s).clk = s.clk := by simp [writeTileWord]
@[simp] theorem tileRead_clk : (tileRead g w s).clk = s.clk := by simp [tileRead]
@[simp] theorem holdAccess_clk (v : Option Word) : (holdAccess g w v s).clk = s.clk := by simp [holdAccess]
@[simp] theorem markRec_clk : (markRec s).clk = s.clk := by simp [markRec]
@[simp] theorem bumpEpoch_clk : (bumpEpoch s).clk = s.clk := by simp [bumpEpoch]
@[simp] theorem settleArmed_clk : (settleArmed s).clk = s.clk := by simp [settleArmed]
@[simp] theorem commitTileDone_clk : (commitTileDone g s).clk = s.clk := by simp [commitTileDone]
@[simp] theorem tileApplied_clk : (tileApplied g s).clk = s.clk := by simp [tileApplied]
theorem takeReportWith_clk {done : Nat → State → State} (h : ∀ g s, (done g s).clk = s.clk) (f : BitVec 6) :
    (takeReportWith done g f s).clk = s.clk := by simp [takeReportWith, h]
theorem flushWith_clk {done : Nat → State → State} (h : ∀ g s, (done g s).clk = s.clk) (g : Nat) :
    (flushWith done g s).clk = s.clk := by simp [flushWith, takeReportWith_clk (h := h)]
@[simp] theorem releaseHeld_clk : (releaseHeld s).clk = s.clk := by
  unfold releaseHeld
  split
  · rfl
  · dsimp only
    split <;> simp [flushWith_clk (h := tileApplied_clk)]
@[simp] theorem endUpdate_clk (code : BitVec 8) : (endUpdate code s).clk = s.clk := by simp [endUpdate]
@[simp] theorem applyDone_clk : (applyDone g s).clk = s.clk := by
  unfold applyDone
  dsimp only
  split <;> simp
@[simp] theorem flushReport_clk : (flushReport g s).clk = s.clk := flushWith_clk s applyDone_clk g
@[simp] theorem hostTileWrite_clk : (hostTileWrite g w v s).clk = s.clk := by simp [hostTileWrite]
@[simp] theorem hostTileRead_clk (g w : Nat) : (hostTileRead g w s).clk = s.clk := by simp [hostTileRead]
@[simp] theorem effGateRuleWrite_clk (g : TileNo) (word : BitVec 8) (data : Word) :
    (effGateRuleWrite g word data s).clk = s.clk := by simp [effGateRuleWrite]
@[simp] theorem effGateCtlWrite_clk (g : TileNo) (en : Bool) : (effGateCtlWrite g en s).clk = s.clk := by simp [effGateCtlWrite]
@[simp] theorem effGateLogPop_clk (g : TileNo) (pop : Bool) : (effGateLogPop g pop s).clk = s.clk := by simp [effGateLogPop]

/-! ### The boot port (02 R36 to R62) -/

@[simp] theorem openBoot_clk : (openBoot s).clk = s.clk := by simp [openBoot]
@[simp] theorem freshBoot_clk : (freshBoot s).clk = s.clk := by simp [freshBoot]
@[simp] theorem passCycles_clk (r : List BootCycle × BootPort) : (passCycles r s).clk = s.clk := by simp [passCycles]
@[simp] theorem strayCycle_clk (k : Nat) (write : Bool) (tag : Tag) (resp : BitVec 3) (ok : Bool) :
    (strayCycle k write tag resp ok s).clk = s.clk := by simp [strayCycle]
@[simp] theorem bootStray_clk (x : BootStray) : (bootStray x s).clk = s.clk := by
  unfold bootStray
  split <;> simp
@[simp] theorem bootStrays_clk (l : List BootStray) : (bootStrays l s).clk = s.clk := foldl_clk (by simp) _ _
@[simp] theorem readBursts_clk (base : Nat) (i : CopyImage) (l : List BootBurst) :
    (readBursts base i l s).clk = s.clk := by simp [readBursts]
@[simp] theorem readBoot_clk (base : Nat) (a : Nat) (i : CopyImage) (lost : Option Nat) :
    (readBoot base a n i lost s).clk = s.clk := by simp [readBoot]
@[simp] theorem writeBursts_clk (a : Nat) (resp : BootBurst → BitVec 3 × BitVec 4 × BitVec 3) (l : List BootBurst) :
    (writeBursts a resp l s).clk = s.clk := by simp [writeBursts]

/-! ### A copy that is loaded (12 R312 to R322) -/

@[simp] theorem commitLine_clk (old : Word) (new : Word) : (commitLine n old new s).clk = s.clk := by simp [commitLine]
@[simp] theorem applyRoutes_clk (r : Routes) : (applyRoutes r s).clk = s.clk := foldl_clk (by simp) _ _
@[simp] theorem commitRoutes_clk : (commitRoutes s).clk = s.clk := by simp [commitRoutes]
@[simp] theorem loadPartition_clk (l : List Section) : (loadPartition l s).clk = s.clk := foldl_clk (by simp) _ _
@[simp] theorem loadMovers_clk (l : List Section) : (loadMovers l s).clk = s.clk := by simp [loadMovers]
@[simp] theorem loadPorts_clk (l : List Section) : (loadPorts l s).clk = s.clk := foldl_clk (by simp) _ _
@[simp] theorem loadWindows_clk (l : List Section) : (loadWindows l s).clk = s.clk := by simp [loadWindows]
@[simp] theorem loadProgram_clk (b : List Byte) : (loadProgram b s).clk = s.clk := by simp [loadProgram]
@[simp] theorem loadLine_clk (old : Word) (new : Word) : (loadLine n old new s).clk = s.clk := by simp [loadLine]
@[simp] theorem loadRoutes_clk (r : Routes) : (loadRoutes r s).clk = s.clk := foldl_clk (by simp) _ _
@[simp] theorem loadImage_ridge (b : List Byte) : (loadImage b s).clk.ridge = s.clk.ridge := by
  simp [loadImage, loadStructural, loadCascade]

/-! ### Host writes, the end of boot and the way out of RUN (12 R326; 13 R335; 14 R349) -/

@[simp] theorem keepWord_clk (h : State) : (keepWord h w s).clk = s.clk := by simp [keepWord]
@[simp] theorem hostKeeps_clk (h : State) : (hostKeeps h s).clk = s.clk := foldl_clk (by simp) _ _
@[simp] theorem startAll_clk : (startAll s).clk = s.clk := foldl_clk (by simp) _ _
@[simp] theorem openUp_clk (census : BitVec 128) : (openUp census s).clk = s.clk := by simp [openUp, mapPorts_clk]
@[simp] theorem coreOff_clk : (coreOff s).clk = s.clk := by simp [coreOff]
@[simp] theorem freeCoreOutputs_clk : (freeCoreOutputs s).clk = s.clk := by simp [freeCoreOutputs]
@[simp] theorem enterRetain_clk (off : Bool) : (enterRetain off s).clk = s.clk := by simp [enterRetain]
@[simp] theorem spoilPegs_clk (wrap : Nat) (ports : BitVec 8) (f : State) :
    (spoilPegs wrap ports f s).clk = s.clk := by simp [spoilPegs]
@[simp] theorem spoilGate_clk (f : State) : (spoilGate g f s).clk = s.clk := by simp [spoilGate]
@[simp] theorem spoilConfig_clk (f : State) : (spoilConfig f s).clk = s.clk := by simp [spoilConfig]
@[simp] theorem spoilRoll_clk (f : State) : (spoilRoll f s).clk = s.clk := by simp [spoilRoll]
@[simp] theorem spoilEpoch_clk (f : State) : (spoilEpoch f s).clk = s.clk := by simp [spoilEpoch]
@[simp] theorem spoilEffects_clk (f : State) : (spoilEffects f s).clk = s.clk := by
  unfold spoilEffects
  split <;> simp
@[simp] theorem spoil_clk : (spoil s).clk = s.clk := by simp [spoil]
@[simp] theorem writeTargetLow_clk (t : LowTarget) : (writeTargetLow t s).clk = s.clk := by
  simp only [writeTargetLow]
  split <;> simp

/-! ### Wake, commits and the fault log (07 R202; 09 Table 9.12; 11 R303; 14 R351) -/

@[simp] theorem beginWake_clk : (beginWake s).clk = s.clk := by
  unfold beginWake
  dsimp only
  split <;> simp
@[simp] theorem writeTargetRun_clk : (writeTargetRun s).clk = s.clk := by
  unfold writeTargetRun
  split <;> simp
@[simp] theorem finishWake_clk (census : BitVec 128) : (finishWake census s).clk = s.clk := by simp [finishWake, mapPorts_clk]
@[simp] theorem fallBack_clk (detail : BitVec 4) (addr : Addr) : (fallBack detail addr s).clk = s.clk := by simp [fallBack]
@[simp] theorem corrections_clk (src : BitVec 3) (n : BitVec 16) : (corrections src n s).clk = s.clk := foldl_clk (by simp) _ _
@[simp] theorem pegCommitWrite_clk (ports : BitVec 8) (prio : Bool) (armed : Bool) :
    (pegCommitWrite ports prio armed s).clk = s.clk := by simp [pegCommitWrite]
@[simp] theorem effPegCommit_clk (ports : BitVec 8) (prio : Bool) :
    (effPegCommit ports prio s).clk = s.clk := by simp [effPegCommit]
@[simp] theorem takeAt_clk_pwr (t : Nat) : (takeAt t s).clk = s.clk ∧ (takeAt t s).pwr = s.pwr := by simp [takeAt]
@[simp] theorem armCommit_clk (t : BitVec 64) (e : Word) : (armCommit t e s).clk = s.clk := by simp [armCommit]
@[simp] theorem startRehash_clk (u : ShaUser) : (startRehash u s).clk = s.clk := by simp [startRehash]
@[simp] theorem effFlogPop_clk (pop : Bool) : (effFlogPop pop s).clk = s.clk := by simp [effFlogPop]

/-! ### The guyline (11 R285 to R303) -/

@[simp] theorem setLink_clk (down : Bool) (l : Link) : (setLink down l s).clk = s.clk := by simp [setLink]
@[simp] theorem queueOwn_clk (down : Bool) (f : Frame) : (queueOwn down f s).clk = s.clk := by simp [queueOwn]
@[simp] theorem glCount_clk (f : Guyline → Guyline) : (glCount f s).clk = s.clk := by simp [glCount]
@[simp] theorem forward_clk (down : Bool) (f : Frame) : (forward down f s).clk = s.clk := by simp [forward]
@[simp] theorem driveLinks_clk : (driveLinks s).clk = s.clk := by simp [driveLinks]
@[simp] theorem armMask_clk (del : BitVec 64) (mask : BitVec 64) : (armMask del mask s).clk = s.clk := by simp [armMask]
@[simp] theorem sent_clk (f : Frame) : (sent f s).clk = s.clk := by
  unfold sent
  split <;> simp
@[simp] theorem rollSent_clk (f : Frame) : (rollSent f s).clk = s.clk := by
  unfold rollSent
  split <;> simp
@[simp] theorem startFrame_clk (down : Bool) : (startFrame down s).clk = s.clk := by
  simp only [startFrame]
  repeat' split
  all_goals simp
@[simp] theorem startWaiting_clk (down : Bool) : (startWaiting down s).clk = s.clk := by simp [startWaiting]
@[simp] theorem tickLinks_clk : (tickLinks s).clk = s.clk := by simp [tickLinks]
@[simp] theorem deliverMask_clk (mask : BitVec 64) : (deliverMask mask s).clk = s.clk := by simp [deliverMask]
@[simp] theorem gevtChecked_clk (last : BitVec 64) (del : BitVec 64) (mask : BitVec 64) :
    (gevtChecked last del mask s).clk = s.clk := by simp [gevtChecked]
@[simp] theorem checkGevts_clk (last : BitVec 64) : (checkGevts last s).clk = s.clk := foldl_clk (by simp) _ _
@[simp] theorem queueReceived_clk : (queueReceived s).clk = s.clk := foldl_clk (by simp) _ _
@[simp] theorem joinRoll_clk (round : BitVec 16) (e : Word) (tr : BitVec 64) :
    (joinRoll round e tr s).clk = s.clk := by simp [joinRoll]

/-! ### The commands of the mailbox (13 R333 to R344) -/

@[simp] theorem fail_clk (code : BitVec 8) : (fail code s).clk = s.clk := by simp [fail]
@[simp] theorem done_clk_pwr : (done s).clk = s.clk ∧ (done s).pwr = s.pwr := by simp [done]
@[simp] theorem await_clk (j : Job) : (await j s).clk = s.clk := by simp [await]
@[simp] theorem loadStore_clk (nobump : Bool) (off : Nat) : (loadStore nobump off n s).clk = s.clk := by simp [loadStore]
@[simp] theorem loadOption_clk (off : Nat) (x : Extras) : (loadOption off n x s).clk = s.clk := by
  simp only [loadOption]
  repeat' split
  all_goals simp
@[simp] theorem lastAnswer_clk (tags : BitVec 4) : (lastAnswer tags s).clk = s.clk := by
  unfold lastAnswer
  split <;> simp
@[simp] theorem loadEnds_clk (off : Nat) (p : Nat) (stopped : Bool) (tags : BitVec 4) :
    (loadEnds off n p stopped tags s).clk = s.clk := by simp [loadEnds]
@[simp] theorem runLoad_clk (x : Extras) : (runLoad x s).clk = s.clk := by simp [runLoad]
@[simp] theorem verifyGoes_clk : (verifyGoes s).clk = s.clk := by
  unfold verifyGoes
  split <;> simp
@[simp] theorem readCopy_clk (copyB : Bool) (i : CopyImage) (lost : Option (BitVec 11)) :
    (readCopy copyB i lost s).clk = s.clk := by simp [readCopy]
@[simp] theorem verifyCopy_clk (copyB : Bool) (x : Extras) : (verifyCopy copyB x s).clk = s.clk := by
  simp only [verifyCopy]
  repeat' split
  all_goals simp
@[simp] theorem verifyBytes_clk (copyB : Bool) (off n : Nat) (x : Extras) :
    (verifyBytes copyB off n x s).clk = s.clk := by
  simp only [verifyBytes]
  repeat' split
  all_goals simp
@[simp] theorem runVerify_clk (x : Extras) : (runVerify x s).clk = s.clk := by simp [runVerify]
@[simp] theorem rejectCopy_clk (copyB : Bool) (r : Nat × Nat) (b : List Byte) :
    (rejectCopy copyB r b s).clk = s.clk := by simp [rejectCopy]
@[simp] theorem restructureGoes_ridge : (restructureGoes s).clk.ridge = s.clk.ridge := by
  simp only [restructureGoes]
  repeat' split
  all_goals simp [restructure]
@[simp] theorem runRestructure_ridge (x : Extras) : (runRestructure x s).clk.ridge = s.clk.ridge := by
  simp only [runRestructure]
  repeat' split
  all_goals simp
@[simp] theorem runCommitAt_clk : (runCommitAt s).clk = s.clk := by simp [runCommitAt]
@[simp] theorem runRollcall_clk : (runRollcall s).clk = s.clk := by simp [runRollcall]
@[simp] theorem runSetTime_ridge : (runSetTime s).clk.ridge = s.clk.ridge := by
  simp only [runSetTime]
  split <;> simp
@[simp] theorem parkNow_clk : (parkNow ch s).clk = s.clk := by
  simp only [parkNow]
  repeat' split
  all_goals simp
@[simp] theorem runPark_clk : (runPark s).clk = s.clk := by simp [runPark]
@[simp] theorem runResume_clk : (runResume s).clk = s.clk := by
  simp only [runResume]
  repeat' split
  all_goals simp
@[simp] theorem runSkip_clk : (runSkip s).clk = s.clk := by
  simp only [runSkip]
  repeat' split
  all_goals simp
@[simp] theorem beginSoftReset_clk : (beginSoftReset s).clk = s.clk := foldl_clk (by simp) _ _
@[simp] theorem runResetCh_clk : (runResetCh s).clk = s.clk := by simp [runResetCh]
theorem endSoftReset_clk : (endSoftReset s).clk = s.clk := by simp [endSoftReset, mapPorts_clk]
@[simp] theorem runGateUpdate_clk (x : Extras) : (runGateUpdate x s).clk = s.clk := by
  unfold runGateUpdate
  split <;> simp
@[simp] theorem copyPegs_clk (ports : BitVec 8) : (copyPegs ports s).clk = s.clk := by simp [copyPegs]
@[simp] theorem runPegUpdate_clk : (runPegUpdate s).clk = s.clk := by simp [runPegUpdate]
@[simp] theorem runRouteUpdate_clk : (runRouteUpdate s).clk = s.clk := by simp [runRouteUpdate]
@[simp] theorem runDigest_clk : (runDigest s).clk = s.clk := by simp [runDigest]
@[simp] theorem runSelftest_clk (x : Extras) : (runSelftest x s).clk = s.clk := by simp [runSelftest]
@[simp] theorem selftestEnds_clk (t : BitVec 4) (f : BitVec 4) : (selftestEnds t f s).clk = s.clk := by simp [selftestEnds]
@[simp] theorem jobsDue_ridge : (jobsDue s).clk.ridge = s.clk.ridge := by
  unfold jobsDue
  split <;> simp
@[simp] theorem runReadLog_clk : (runReadLog s).clk = s.clk := by simp [runReadLog]
@[simp] theorem runCommand_ridge (op : Nat) (x : Extras) : (runCommand op x s).clk.ridge = s.clk.ridge := by
  unfold runCommand
  split <;> simp
@[simp] theorem hostIssue_ridge (op tok : Byte) (args : Args → Args) (x : Extras) :
    (hostIssue op tok args x s).clk.ridge = s.clk.ridge := by
  simp [hostIssue, issue, ite_ridge]
@[simp] theorem logRail_clk (u : RailUnit) : (logRail u s).clk = s.clk := by
  unfold logRail
  split <;> simp
@[simp] theorem freeze_clk (u : RailUnit) : (freeze u s).clk = s.clk := by
  unfold freeze
  split <;> simp
@[simp] theorem beginFreeze_clk (us : List RailUnit) : (beginFreeze us s).clk = s.clk := by simp [beginFreeze]
@[simp] theorem reactRails_clk : (reactRails s).clk = s.clk := by
  unfold reactRails
  dsimp only
  split <;> simp

/-! ### Host reads and writes (15 R374 to R379) -/

@[simp] theorem portError_clk : (portError s).clk = s.clk := by simp [portError]
@[simp] theorem doRead_clk : (doRead w s).clk = s.clk := by simp [doRead]
@[simp] theorem writePwrCtl_clk : (writePwrCtl v s).clk = s.clk := by
  unfold writePwrCtl
  dsimp only
  split <;> simp
@[simp] theorem writeAdmin_clk : (writeAdmin w v s).clk = s.clk := by
  unfold writeAdmin
  split <;> simp
@[simp] theorem writeLines_clk : (writeLines w v s).clk = s.clk := by simp [writeLines]
@[simp] theorem writeMailbox_ridge : (writeMailbox w v s).clk.ridge = s.clk.ridge := by
  simp [writeMailbox, issue, ite_ridge]
@[simp] theorem writePort_clk (o : Nat) : (writePort n o v s).clk = s.clk := by
  unfold writePort
  split <;> simp
@[simp] theorem writeGate_clk : (writeGate w v s).clk = s.clk := by simp [writeGate]
@[simp] theorem writeBuf_clk : (writeBuf w v s).clk = s.clk := by simp [writeBuf]
@[simp] theorem writeRidge_clk : (writeRidge w v s).clk = s.clk := by simp [writeRidge]
@[simp] theorem writeRoute_clk : (writeRoute w v s).clk = s.clk := by simp [writeRoute]
@[simp] theorem writeEnable_clk (ch : Chan) (en : Bool) : (writeEnable ch en s).clk = s.clk := by simp [writeEnable]
@[simp] theorem writeChan_clk (o : Nat) : (writeChan ch o v s).clk = s.clk := by simp [writeChan]
@[simp] theorem writeReg_ridge : (writeReg w v s).clk.ridge = s.clk.ridge := by
  unfold writeReg
  with_reducible repeat' apply ridge_of_ite
  all_goals simp
@[simp] theorem doWrite_ridge : (doWrite w v s).clk.ridge = s.clk.ridge := by
  rw [← hostWrote_clk w s]
  unfold doWrite
  dsimp only
  with_reducible repeat' apply ridge_of_ite
  all_goals simp
@[simp] theorem effRegisterWrite_ridge (addr : BitVec 18) (par : BitVec 2) :
    (effRegisterWrite addr v par s).clk.ridge = s.clk.ridge := by
  unfold effRegisterWrite
  exact ridge_of_ite (by simp) (by simp)

@[simp] theorem effCaptureRead_clk (addr : BitVec 18) (par : ReadPar) : (effCaptureRead addr par s).clk = s.clk := by
  simp [effCaptureRead]

/-- No command that the port serves moves ridge time: SET_TIME names the value that a later TICK edge takes (13 R340). -/
theorem runHost_ridge (i : Instr) : (runHost i s).clk.ridge = s.clk.ridge := by
  cases i
  case loadProgramStore | loadOptionArea | verify | verifyRead | restructure | commitAt | park | resume | skip | resetCh
      | engineSoftReset | gateUpdate | gateUpdateStageOnly | pegUpdate | routeUpdate | digest | rollcall | selftest | readLog
      | setTime | cmdReservedOpcode => exact hostIssue_ridge ..
  case registerWrite => exact effRegisterWrite_ridge ..
  case evtSw => exact congrArg Clock.ridge (effEvtSw_clk ..)
  case chStart => exact congrArg Clock.ridge (effChStart_clk ..)
  case chAbort => exact congrArg Clock.ridge (effChAbort_clk ..)
  case gateRuleWrite => exact congrArg Clock.ridge (effGateRuleWrite_clk ..)
  case gateCtlWrite => exact congrArg Clock.ridge (effGateCtlWrite_clk ..)
  case gateLogPop => exact congrArg Clock.ridge (effGateLogPop_clk ..)
  case pegCommit => exact congrArg Clock.ridge (effPegCommit_clk ..)
  case flogPop => exact congrArg Clock.ridge (effFlogPop_clk ..)
  case captureRead => exact congrArg Clock.ridge (effCaptureRead_clk ..)
  case tileRegisterRead => exact congrArg Clock.ridge (doRead_clk ..)
  case pwrTargetLow => exact congrArg Clock.ridge (writeTargetLow_clk ..)
  case pwrTargetRun => exact congrArg Clock.ridge (writeTargetRun_clk ..)
  all_goals rfl

@[simp] theorem drivePort_clk : (drivePort s).clk = s.clk := by
  unfold drivePort
  split <;> simp
@[simp] theorem servePort_ridge : (servePort s).clk.ridge = s.clk.ridge := by
  unfold servePort
  split
  · split
    · rw [runHost_ridge]; simp
    · rfl
  · rfl
@[simp] theorem tickSafety_clk : (tickSafety s).clk = s.clk := by simp [tickSafety]

/-! ### The ccyc -/

@[simp] theorem tickEdge_clk : (tickEdge s).clk = tickRidge s.clk := by simp [tickEdge]
@[simp] theorem endCcyc_clk_pwr : (endCcyc s).clk = s.clk ∧ (endCcyc s).pwr = s.pwr := by simp [endCcyc]
@[simp] theorem lastEdges_clk_pwr (edges : List Nat) :
    (lastEdges edges s).clk = s.clk ∧ (lastEdges edges s).pwr = s.pwr := by simp [lastEdges]
@[simp] theorem ccycEnd_clk_pwr : (ccycEnd s).clk = s.clk ∧ (ccycEnd s).pwr = s.pwr := by simp [ccycEnd]
@[simp] theorem coreStart_clk (edges : List Nat) : (coreStart edges s).clk = s.clk := by simp [coreStart]
@[simp] theorem coreEdge_ridge (late : BitVec 64) : (coreEdge late s).clk.ridge = s.clk.ridge := by
  simp [coreEdge, coreTick, ite_ridge]
@[simp] theorem keepStart_clk : (keepStart s).clk = s.clk := by simp [keepStart]
@[simp] theorem pdEdge_ridge : (pdEdge s).clk.ridge = s.clk.ridge := by
  simp only [pdEdge, sampleAck, ackSampled]
  repeat' split
  all_goals simp

/-! ### Ridge time in a ccyc (11 R278) -/

/-- The TICK edge that begins an even ccyc is the one place where a ccyc moves ridge time. -/
theorem aoEdge_clk_of_even (hst : s.pwr.st ≠ .off) (heven : s.clk.now % 2 = 0) : (aoEdge s).clk = tickRidge s.clk := by
  simp [aoEdge, hst, heven]

/-- A TICK edge with no step, no correction and no SET_TIME adds 1. -/
theorem tickRidge_ridge {c : Clock} (hstep : c.stepTo = none) (hadj : c.adj = 0) (hset : c.setTime = none) :
    (tickRidge c).ridge = c.ridge + 1 := by
  simp [tickRidge, hstep, hadj, hset]

/-- What follows the edge in the new ccyc, accesses at the port included, leaves ridge time as the edge set it. -/
theorem tick_ridge : (tick s).clk.ridge = (aoEdge (nextCcyc (ccycEnd s))).clk.ridge := by
  unfold tick
  dsimp only
  split <;> simp

theorem nextCcyc_ccycEnd_clk : (nextCcyc (ccycEnd s)).clk = { s.clk with now := s.clk.now + 1 } := by
  simp [nextCcyc]

theorem tick_ridge_of_odd (hst : s.pwr.st ≠ .off) (hodd : s.clk.now % 2 = 1) (hstep : s.clk.stepTo = none) (hadj : s.clk.adj = 0)
    (hset : s.clk.setTime = none) : (tick s).clk.ridge = s.clk.ridge + 1 := by
  have hclk := nextCcyc_ccycEnd_clk s
  have hpwr : (nextCcyc (ccycEnd s)).pwr = s.pwr := (ccycEnd_clk_pwr s).2
  have heven : (nextCcyc (ccycEnd s)).clk.now % 2 = 0 := by rw [hclk]; dsimp only; omega
  rw [tick_ridge, aoEdge_clk_of_even _ (by rwa [hpwr]) heven, hclk]
  exact tickRidge_ridge hstep hadj hset

/-! ### Ridge time across resets (11 R278; 14 R356 to R358) -/

theorem portOff_clk : (portOff s).clk = s.clk := by
  unfold portOff
  split <;> rfl

/-- Whether the port serves the engine soft reset, keeps it waiting or is off, ridge time stays. -/
theorem hostAccess_engineSoftReset_ridge (tok : Byte) (ch : Chan) (rsv : BitVec 21) :
    (hostAccess (.engineSoftReset tok ch rsv) (effEngineSoftReset tok ch rsv) s).clk.ridge = s.clk.ridge := by
  unfold hostAccess
  exact ridge_of_ite (by rw [portOff_clk]) (ridge_of_ite (by simp [effEngineSoftReset]) rfl)

theorem exec_softResetDrainEnd_ridge : ∃ t, exec .softResetDrainEnd s = .next t ∧ t.clk.ridge = s.clk.ridge := by
  refine ⟨_, rfl, ?_⟩
  split
  · exact ridge_of_ite (by rw [endSoftReset_clk]) rfl
  · rfl

theorem exec_porstN_ridge (htm : s.test.tm = false) : ∃ t, exec .porstN s = .next t ∧ t.clk.ridge = 0 :=
  ⟨_, rfl, by simp only [htm]; rfl⟩

theorem exec_sysrstN_ridge (hst : s.pwr.st ≠ .off) (htm : s.test.tm = false) (hporst : s.clk.porstAt ≠ some s.clk.now) :
    ∃ t, exec .sysrstN s = .next t ∧ t.clk.ridge = s.clk.ridge :=
  ⟨_, rfl, by simp [hst, htm, hporst]⟩

/-- Freeing the outputs of CORE, under TM 1, touches nothing of AO that counts or logs. -/
theorem freeCoreOutputs_ao : (freeCoreOutputs s).pwr = s.pwr ∧ (freeCoreOutputs s).clk = s.clk ∧
    (freeCoreOutputs s).flog = s.flog ∧ (freeCoreOutputs s).irq = s.irq ∧ (freeCoreOutputs s).test = s.test := by
  unfold freeCoreOutputs
  split <;> simp [takeFree]

/-- Freeing the outputs of AO moves output pins only, and none with TM 0. -/
theorem freeAoOutputs_ao : (freeAoOutputs s).pwr.st = s.pwr.st ∧ (freeAoOutputs s).clk = s.clk ∧
    (freeAoOutputs s).flog = s.flog ∧ (s.test.tm = false → (freeAoOutputs s).irq = s.irq) := by
  unfold freeAoOutputs
  split <;> simp_all [takeFree]

theorem exec_supplyRemoval_lost : ∃ t, exec .supplyRemoval s = .next t ∧ t.pwr.st = .off ∧ t.clk.ridge = 0 ∧ t.flog = {} ∧
    (s.test.tm = false → t.irq = {}) := by
  refine ⟨_, rfl, ?_⟩
  generalize hr : isolateAo _ = r
  obtain ⟨hst, hclk, hflog, hirq⟩ := freeAoOutputs_ao (freeCoreOutputs r)
  obtain ⟨cpwr, cclk, cflog, cirq, ctest⟩ := freeCoreOutputs_ao r
  rw [hst, hclk, hflog, cpwr, cclk, cflog]
  rw [ctest, cirq] at hirq
  subst hr
  exact ⟨rfl, rfl, rfl, fun htm => (hirq htm).trans rfl⟩

end Sys2Proof.Machine

end

section

/-! PROOFS. Ridge time across resets settled (O43), from what a ccyc, a reset and the loss of the supply do to it. -/

namespace Sys2Proof.Machine

/-- Settles O43: every operation of a ccyc but the TICK edge keeps ridge time, the resets carry it over, and PORST_N and the loss of
the supply start it at 0. -/
theorem ridgeTimeAcrossResets : Obligations.RidgeTimeAcrossResets := by
  unfold Obligations.RidgeTimeAcrossResets
  intro s
  refine ⟨exec_porstN_ridge s, fun hst hodd hstep hadj hset => ?_, exec_sysrstN_ridge s, fun tok _ => ?_, exec_supplyRemoval_lost s⟩
  · have hon : s.pwr.st ≠ .off := by rcases hst with h | h | h <;> simp [h]
    exact tick_ridge_of_odd s hon hodd hstep hadj hset
  · obtain ⟨u, hu, hridge⟩ := exec_softResetDrainEnd_ridge (hostAccess (.engineSoftReset tok 0 0) (effEngineSoftReset tok 0 0) s)
    have hkept := hostAccess_engineSoftReset_ridge s tok 0 0
    exact ⟨_, u, rfl, hkept, hu, hridge.trans hkept⟩

end Sys2Proof.Machine

end
